-- ==== Sys2Proof/Word.lean ====
section
/-! DEFINITION. The plain word types of the SPI NOR flash command encoder: bytes, pages, and the two kinds of code
an instruction is written in (a wire frame or a host request word). -/

namespace Sys2Proof

/-- The only unit on the bus (20_memory R80). -/
abbrev Byte := BitVec 8

/-- One page of program data, WDATA[0] to WDATA[255] (10_state R23). -/
abbrev Page := Vector Byte 256

/-- The two encodings of 30_encoding: the bytes of a wire frame, first byte first (R90), and the 64-bit host request
word (R100), which is a value and has no byte order. -/
inductive Code where
  | frame (tx : List Byte)
  | req (w : BitVec 64)
deriving DecidableEq, Repr

end Sys2Proof
end

