-- ==== Sys2Proof/Config.lean ====
section
/-! DEFINITION. What an implementation fixes and what the spec leaves open. A constant with a body is a value the spec
states; an opaque one has no body, so no proof can lean on its value. -/

namespace Sys2Proof

/-! ## Constants of the source (00_scope R3, R5; 45_lifecycle R197) -/

/-- PAGE_SIZE (R3). -/
def Config.pageSize : Nat := 256

/-- SECTOR_SIZE (R3). -/
def Config.sectorSize : Nat := 4096

/-- PAGES_PER_SECTOR (R3). -/
def Config.pagesPerSector : Nat := 16

/-- EXPECTED_ID, a constant of the block and not a parameter (R3, R197). -/
def Config.expectedId : Byte := 0x18#8

/-- FILL, sent wherever the block only receives or the source says don't-care (R5; decision D4). -/
def Config.fill : Byte := 0x00#8

/-- The default of SCK_HZ (R4). -/
def Config.sckHzDefault : Nat := 10000000

/-- The bus settings that hold for every transaction (10_state R29). -/
structure BusSettings where
  msbFirst : Bool
  clockIdlesHigh : Bool
  sampleOnLeadingEdge : Bool
deriving DecidableEq, Repr

/-- Most significant bit first, clock idle low, sampling on the leading edge (R3, R29; 20_memory R53). -/
def Config.busSettings : BusSettings :=
  { msbFirst := true, clockIdlesHigh := false, sampleOnLeadingEdge := true }

/-! ## Parameters of the reference device (00_scope R6) -/

/-- DEV_PROGRAM_MODEL (20_memory R57). -/
inductive ProgramModel where
  | and | havoc
deriving DecidableEq, Repr

/-- DEV_UNALIGNED_PROGRAM (20_memory R72). -/
inductive UnalignedProgram where
  | wrap | havoc
deriving DecidableEq, Repr

/-- DEV_4B_CMD_IN_3B_MODE (20_memory R74). -/
inductive Mode3b where
  | same | havoc
deriving DecidableEq, Repr

/-- DEV_WEL_DURING_BUSY (20_memory R70). -/
inductive WelBusy where
  | keep | any
deriving DecidableEq, Repr

/-! ## Open values: no body, nothing can evaluate them -/

/-- The n-th byte draw: a MISO byte no rule defines (20_memory R75), a drawn bit, MOSI between transactions
(log entry 6). -/
opaque Config.draw : Nat → Byte

/-- How many further gaps between transactions the busy period begun at draw n lasts (20_memory R70, decision D26;
log entry 7). -/
opaque Config.busyTime : Nat → Nat

/-- The drawn content of the array byte at an address, in the n-th drawing of the array (20_memory R58, R79;
log entry 5). -/
opaque Config.arrayDraw : Nat → Nat → Byte

/-- SR1 at power-on: BUSY, WEL and the other bits are draws (20_memory R79; log entry 4). -/
opaque Config.powerOnSr1 : Byte

/-- SR2 at power-on, a draw (20_memory R79; log entry 4). -/
opaque Config.powerOnSr2 : Byte

/-- SR3 at power-on: ADS and the other bits are draws (20_memory R79; log entry 4). -/
opaque Config.powerOnSr3 : Byte

/-- DEV_ID of the part that is fitted (00_scope R6; log entry 8). -/
opaque Config.devId : Byte

/-- DEV_CAPACITY - 1 of the part that is fitted, so that the capacity is in (0, 2^32] (00_scope R6, 20_memory R73;
log entry 8). -/
opaque Config.devLastAddr : BitVec 32

/-- CS_ID, the name of the chip-select line the block is constructed with (00_scope R4; log entry 8). -/
opaque Config.csId : Nat

end Sys2Proof
end

