-- ==== Sys2Proof/Syntax.lean ====
section
/-! DEFINITION. The instructions: one constructor a row of spec/opcode_table.json. The first nine are the wire commands
the sequencer sends, one transaction each (40_command_encoder); the others are the host operations (30_encoding R102). -/

namespace Sys2Proof

inductive Instr where
  /-- Read status register 1, wire opcode 0x05 (R121). -/
  | encSr1
  /-- Read status register 2, wire opcode 0x35 (R122). -/
  | encSr2
  /-- Read status register 3, wire opcode 0x15 (R123). -/
  | encSr3
  /-- Enter 4-byte address mode, wire opcode 0xB7 (R124). -/
  | encEnter4b
  /-- Write enable, wire opcode 0x06 (R125). -/
  | encWren
  /-- Read device ID, wire opcode 0xAB (R126). -/
  | encId
  /-- Read memory, wire opcode 0x13, N data bytes (R127). -/
  | encRead (addr : BitVec 32) (n : BitVec 16)
  /-- Page program, wire opcode 0x12, exactly 256 data bytes (R128; `WellFormed`). -/
  | encProg (addr : BitVec 32) (data : List Byte)
  /-- Sector erase, wire opcode 0x21 (R129). -/
  | encErase (addr : BitVec 32)
  /-- BEGIN (R195). -/
  | begin
  /-- READ_SR with WHICH = 1 (R141). -/
  | readSr1
  /-- READ_SR with WHICH = 2 (R141). -/
  | readSr2
  /-- READ_SR with WHICH = 3 (R141). -/
  | readSr3
  /-- BUSY (R142). -/
  | busy
  /-- WRITE_ENABLED (R143). -/
  | writeEnabled
  /-- ADDR_MODE_4B (R144). -/
  | addrMode4b
  /-- ENTER_4B (R151). -/
  | enter4b
  /-- ENABLE_WRITE (R152). -/
  | enableWrite
  /-- READ_ID (R153). -/
  | readId
  /-- WORKS (R196). -/
  | works
  /-- READ_RAW ADDR, LEN (R154). -/
  | readRaw (addr : BitVec 32) (len : BitVec 16)
  /-- PROGRAM_PAGE ADDR; the data is WDATA (R155). -/
  | programPage (addr : BitVec 32)
  /-- ERASE_SECTOR ADDR (R156). -/
  | eraseSector (addr : BitVec 32)
  /-- READ_PAGE PAGE (R181). -/
  | readPage (page : BitVec 24)
  /-- WRITE_PAGE PAGE; the data is WDATA (R182). -/
  | writePage (page : BitVec 24)
  /-- SECTOR_ERASE SECTOR (R183). -/
  | sectorErase (sector : BitVec 20)
  /-- ERASE_UP_TO_PAGE PAGE (R184). -/
  | eraseUpToPage (page : BitVec 24)
  /-- PAGE_ADDR PAGE (R173). -/
  | pageAddr (page : BitVec 24)
  /-- SECTOR_ADDR SECTOR (R174). -/
  | sectorAddr (sector : BitVec 20)
  /-- SECTOR_OF_PAGE PAGE (R175). -/
  | sectorOfPage (page : BitVec 24)
deriving DecidableEq, Repr

end Sys2Proof
end

