-- ==== Sys2Proof/WellFormed.lean ====
section
/-! DEFINITION. Which terms of `Instr` are instructions. Every operand but one has exactly the width of its field, so
the one check is that a page program carries a whole page (40_command_encoder R128, 20_memory R67). -/

namespace Sys2Proof

/-- A page program carries exactly 256 data bytes; every other term is well formed. -/
def Instr.wellFormed : Instr → Bool
  | .encProg _ data => data.length == Config.pageSize
  | _ => true

/-- The proposition of `Instr.wellFormed`. -/
abbrev WellFormed (i : Instr) : Prop := i.wellFormed = true

end Sys2Proof
end

