-- ==== Sys2Proof/Decode.lean ====
section
/-! DEFINITION. Decoding, total on any frame and any request word and rejecting by name, and after it the encoders of
30_encoding and 40_command_encoder. -/

namespace Sys2Proof

/-- Why a frame or a request word is no instruction. -/
inductive DecodeError where
  /-- A frame of no bytes: a transaction has at least its opcode (20_memory R52). -/
  | emptyFrame
  /-- A first byte that is none of the nine wire opcodes (30_encoding R92). -/
  | unknownOpcode
  /-- A frame whose length is not the one its opcode fixes (R93). -/
  | badLength
  /-- A byte the encoder sends as FILL that is not FILL (R90). -/
  | badFill
  /-- OP 0x00 or 0x14 to 0x1F (R104). -/
  | reservedOp
  /-- A reserved bit REQ[15:7] is 1 (R104). -/
  | reservedBits
  /-- WHICH = 0 for READ_SR (R104). -/
  | whichZero
  /-- WHICH other than 0 for an operation other than READ_SR (R104). -/
  | whichNonzero
  /-- LEN other than 0 for an operation other than READ_RAW (R104). -/
  | lenNonzero
  /-- ARG other than 0 for an operation without an ARG operand (R104). -/
  | argNonzero
  /-- ARG[31:24] other than 0 for a page operand (R104). -/
  | pageTooWide
  /-- ARG[31:20] other than 0 for a sector operand (R104). -/
  | sectorTooWide
deriving DecidableEq, Repr

/-! ## Wire frames (30_encoding R90 to R93) -/

/-- The four bytes of a big-endian address put together (20_memory R54). -/
def joinAddr (a3 a2 a1 a0 : Byte) : BitVec 32 := a3 ++ a2 ++ a1 ++ a0

/-- W_SR: one more byte, FILL. -/
def decodeSrFrame (i : Instr) : List Byte → Except DecodeError Instr
  | [b] => if b = Config.fill then .ok i else .error .badFill
  | _ => .error .badLength

/-- W_CMD: the opcode alone. -/
def decodeCmdFrame (i : Instr) : List Byte → Except DecodeError Instr
  | [] => .ok i
  | _ => .error .badLength

/-- W_ID: four more bytes, all FILL. -/
def decodeIdFrame : List Byte → Except DecodeError Instr
  | [b1, b2, b3, b4] =>
    if [b1, b2, b3, b4] = List.replicate 4 Config.fill then .ok .encId else .error .badFill
  | _ => .error .badLength

/-- W_READ: a big-endian address, then N bytes of FILL, N at most 65535. -/
def decodeReadFrame : List Byte → Except DecodeError Instr
  | a3 :: a2 :: a1 :: a0 :: rest =>
    if rest.length < 65536 then
      if rest.all (· == Config.fill) then
        .ok (.encRead (joinAddr a3 a2 a1 a0) (BitVec.ofNat 16 rest.length))
      else .error .badFill
    else .error .badLength
  | _ => .error .badLength

/-- W_PROG: a big-endian address, then exactly 256 bytes. -/
def decodeProgFrame : List Byte → Except DecodeError Instr
  | a3 :: a2 :: a1 :: a0 :: data =>
    if data.length = Config.pageSize then .ok (.encProg (joinAddr a3 a2 a1 a0) data)
    else .error .badLength
  | _ => .error .badLength

/-- W_ERASE: a big-endian address. -/
def decodeEraseFrame : List Byte → Except DecodeError Instr
  | [a3, a2, a1, a0] => .ok (.encErase (joinAddr a3 a2 a1 a0))
  | _ => .error .badLength

/-- The wire opcode map (R92): exactly nine first bytes mean something. -/
def decodeFrame : List Byte → Except DecodeError Instr
  | [] => .error .emptyFrame
  | op :: rest =>
    match op.toNat with
    | 0x05 => decodeSrFrame .encSr1 rest
    | 0x35 => decodeSrFrame .encSr2 rest
    | 0x15 => decodeSrFrame .encSr3 rest
    | 0xB7 => decodeCmdFrame .encEnter4b rest
    | 0x06 => decodeCmdFrame .encWren rest
    | 0xAB => decodeIdFrame rest
    | 0x13 => decodeReadFrame rest
    | 0x12 => decodeProgFrame rest
    | 0x21 => decodeEraseFrame rest
    | _ => .error .unknownOpcode

/-! ## Host request words (30_encoding R100 to R104) -/

/-- OP, REQ[4:0]. -/
def reqOp (w : BitVec 64) : BitVec 5 := w.extractLsb' 0 5

/-- WHICH, REQ[6:5]. -/
def reqWhich (w : BitVec 64) : BitVec 2 := w.extractLsb' 5 2

/-- The reserved bits REQ[15:7]. -/
def reqReserved (w : BitVec 64) : BitVec 9 := w.extractLsb' 7 9

/-- LEN, REQ[31:16]. -/
def reqLen (w : BitVec 64) : BitVec 16 := w.extractLsb' 16 16

/-- ARG, REQ[63:32]. -/
def reqArg (w : BitVec 64) : BitVec 32 := w.extractLsb' 32 32

/-- An operation without any operand: WHICH, LEN and ARG are 0. -/
def decodePlain (w : BitVec 64) (i : Instr) : Except DecodeError Instr :=
  if reqWhich w ≠ 0 then .error .whichNonzero
  else if reqLen w ≠ 0 then .error .lenNonzero
  else if reqArg w ≠ 0 then .error .argNonzero
  else .ok i

/-- READ_SR: WHICH names the register, LEN and ARG are 0. -/
def decodeReadSr (w : BitVec 64) : Except DecodeError Instr :=
  if reqLen w ≠ 0 then .error .lenNonzero
  else if reqArg w ≠ 0 then .error .argNonzero
  else match (reqWhich w).toNat with
    | 1 => .ok .readSr1
    | 2 => .ok .readSr2
    | 3 => .ok .readSr3
    | _ => .error .whichZero

/-- READ_RAW: ARG is the address and LEN the count. -/
def decodeReadRaw (w : BitVec 64) : Except DecodeError Instr :=
  if reqWhich w ≠ 0 then .error .whichNonzero
  else .ok (.readRaw (reqArg w) (reqLen w))

/-- An operation whose ARG is a byte address. -/
def decodeAddrOp (w : BitVec 64) (build : BitVec 32 → Instr) : Except DecodeError Instr :=
  if reqWhich w ≠ 0 then .error .whichNonzero
  else if reqLen w ≠ 0 then .error .lenNonzero
  else .ok (build (reqArg w))

/-- An operation whose ARG[23:0] is a page number. -/
def decodePageOp (w : BitVec 64) (build : BitVec 24 → Instr) : Except DecodeError Instr :=
  if reqWhich w ≠ 0 then .error .whichNonzero
  else if reqLen w ≠ 0 then .error .lenNonzero
  else if (reqArg w).extractLsb' 24 8 ≠ 0 then .error .pageTooWide
  else .ok (build ((reqArg w).extractLsb' 0 24))

/-- An operation whose ARG[19:0] is a sector number. -/
def decodeSectorOp (w : BitVec 64) (build : BitVec 20 → Instr) : Except DecodeError Instr :=
  if reqWhich w ≠ 0 then .error .whichNonzero
  else if reqLen w ≠ 0 then .error .lenNonzero
  else if (reqArg w).extractLsb' 20 12 ≠ 0 then .error .sectorTooWide
  else .ok (build ((reqArg w).extractLsb' 0 20))

/-- The host operation map (R102): the meaning of OP once the reserved bits are 0. -/
def decodeOp (w : BitVec 64) : Except DecodeError Instr :=
  match (reqOp w).toNat with
  | 0x01 => decodePlain w .begin
  | 0x02 => decodeReadSr w
  | 0x03 => decodePlain w .busy
  | 0x04 => decodePlain w .writeEnabled
  | 0x05 => decodePlain w .addrMode4b
  | 0x06 => decodePlain w .enter4b
  | 0x07 => decodePlain w .enableWrite
  | 0x08 => decodePlain w .readId
  | 0x09 => decodePlain w .works
  | 0x0A => decodeReadRaw w
  | 0x0B => decodeAddrOp w .programPage
  | 0x0C => decodeAddrOp w .eraseSector
  | 0x0D => decodePageOp w .readPage
  | 0x0E => decodePageOp w .writePage
  | 0x0F => decodeSectorOp w .sectorErase
  | 0x10 => decodePageOp w .eraseUpToPage
  | 0x11 => decodePageOp w .pageAddr
  | 0x12 => decodeSectorOp w .sectorAddr
  | 0x13 => decodePageOp w .sectorOfPage
  | _ => .error .reservedOp

/-- A request word, legal exactly when it matches a row of R103; the error names a clause of R104 that it breaks. -/
def decodeReq (w : BitVec 64) : Except DecodeError Instr :=
  if reqReserved w ≠ 0 then .error .reservedBits else decodeOp w

/-- Decoding of either kind of code. -/
def decode : Code → Except DecodeError Instr
  | .frame tx => decodeFrame tx
  | .req w => decodeReq w

/-! ## Encoders (40_command_encoder R120, 30_encoding R108) -/

/-- addr4(A): the address, most significant byte first (20_memory R54, R120). -/
def addr4 (a : BitVec 32) : List Byte :=
  [a.extractLsb' 24 8, a.extractLsb' 16 8, a.extractLsb' 8 8, a.extractLsb' 0 8]

/-- ENC_SR(1). -/
def encSr1 : List Byte := [0x05#8, Config.fill]

/-- ENC_SR(2). -/
def encSr2 : List Byte := [0x35#8, Config.fill]

/-- ENC_SR(3). -/
def encSr3 : List Byte := [0x15#8, Config.fill]

/-- ENC_ENTER4B. -/
def encEnter4b : List Byte := [0xB7#8]

/-- ENC_WREN. -/
def encWren : List Byte := [0x06#8]

/-- ENC_ID. -/
def encId : List Byte := 0xAB#8 :: List.replicate 4 Config.fill

/-- ENC_READ(A, N). -/
def encRead (a : BitVec 32) (n : Nat) : List Byte := 0x13#8 :: (addr4 a ++ List.replicate n Config.fill)

/-- ENC_PROG(A, D). -/
def encProg (a : BitVec 32) (d : List Byte) : List Byte := 0x12#8 :: (addr4 a ++ d)

/-- ENC_ERASE(A). -/
def encErase (a : BitVec 32) : List Byte := 0x21#8 :: addr4 a

/-- A request word from its fields, REQ = ARG, LEN, reserved bits 0, WHICH, OP (R100, R108). -/
def packReq (op : BitVec 5) (which : BitVec 2) (len : BitVec 16) (arg : BitVec 32) : BitVec 64 :=
  arg ++ len ++ 0#9 ++ which ++ op

/-- A request word with no operand. -/
def packOp (op : BitVec 5) : BitVec 64 := packReq op 0 0 0

/-- A request word with a page number. -/
def packPage (op : BitVec 5) (p : BitVec 24) : BitVec 64 := packReq op 0 0 (p.setWidth 32)

/-- A request word with a sector number. -/
def packSector (op : BitVec 5) (m : BitVec 20) : BitVec 64 := packReq op 0 0 (m.setWidth 32)

/-- The code of an instruction: its frame (R120) or its request word (R108). -/
def encode : Instr → Code
  | .encSr1 => .frame encSr1
  | .encSr2 => .frame encSr2
  | .encSr3 => .frame encSr3
  | .encEnter4b => .frame encEnter4b
  | .encWren => .frame encWren
  | .encId => .frame encId
  | .encRead a n => .frame (encRead a n.toNat)
  | .encProg a d => .frame (encProg a d)
  | .encErase a => .frame (encErase a)
  | .begin => .req (packOp 0x01)
  | .readSr1 => .req (packReq 0x02 1 0 0)
  | .readSr2 => .req (packReq 0x02 2 0 0)
  | .readSr3 => .req (packReq 0x02 3 0 0)
  | .busy => .req (packOp 0x03)
  | .writeEnabled => .req (packOp 0x04)
  | .addrMode4b => .req (packOp 0x05)
  | .enter4b => .req (packOp 0x06)
  | .enableWrite => .req (packOp 0x07)
  | .readId => .req (packOp 0x08)
  | .works => .req (packOp 0x09)
  | .readRaw a n => .req (packReq 0x0A 0 n a)
  | .programPage a => .req (packReq 0x0B 0 0 a)
  | .eraseSector a => .req (packReq 0x0C 0 0 a)
  | .readPage p => .req (packPage 0x0D p)
  | .writePage p => .req (packPage 0x0E p)
  | .sectorErase m => .req (packSector 0x0F m)
  | .eraseUpToPage p => .req (packPage 0x10 p)
  | .pageAddr p => .req (packPage 0x11 p)
  | .sectorAddr m => .req (packSector 0x12 m)
  | .sectorOfPage p => .req (packPage 0x13 p)

/-! ## The frame as a stream of bits (20_memory R53, 30_encoding R90) and its length in clock cycles (70 R241) -/

/-- The eight bits of a byte in the order they are shifted, bit 7 first (R53). -/
def byteBits (b : Byte) : List Bool := (List.range 8).map (fun t => b.getLsbD (7 - t))

/-- The serial stream of a frame: byte i occupies stream bits 8i to 8i + 7 (R90). -/
def streamBits (tx : List Byte) : List Bool := tx.flatMap byteBits

/-- A transaction of n frame bytes takes 8 n SCK cycles (R241). -/
def sckCycles (tx : List Byte) : Nat := 8 * tx.length

/-! ## The opcode table's own words -/

/-- The frame of a wire row of the opcode table whose operand bytes are all zero: the opcode and as many zero bytes as
its format has (R90), no data byte for a read. -/
def tableFrame (op : Byte) : List Byte :=
  match op.toNat with
  | 0x05 => [op, 0]
  | 0x35 => [op, 0]
  | 0x15 => [op, 0]
  | 0xAB => op :: List.replicate 4 0
  | 0x13 => op :: List.replicate 4 0
  | 0x12 => op :: List.replicate 260 0
  | 0x21 => op :: List.replicate 4 0
  | _ => [op]

/-- The code of a word of the opcode table: an 8-bit row is a wire opcode (its first byte), a wider one a host request
word (log entry 17). -/
def tableCode (nbits w : Nat) : Code :=
  if nbits ≤ 8 then .frame (tableFrame (BitVec.ofNat 8 w)) else .req (BitVec.ofNat 64 w)

/-- What the decoder reads from a word of the opcode table, the bits above the given ones being 0. -/
def decodeTableWord (nbits w : Nat) : Option Instr := (decode (tableCode nbits w)).toOption

end Sys2Proof
end

