-- ==== Sys2Proof/Machine/State.lean ====
section
/-! DEFINITION. The state of the machine as plain data: the block's registers (10_state R21 to R29), the reference
device (20_memory R60), and the inputs that stand outside the block (the host port, MISO, RST). -/

namespace Sys2Proof.Machine

/-- SEQ_STATE (R21). -/
inductive SeqState where
  | idle | run
deriving DecidableEq, Repr

/-- The failure causes of RESP[7:4] (60_exceptions R201). -/
inductive Cause where
  | none | busy | writeDisabled | verifyFailed | illegal
deriving DecidableEq, Repr

/-- The array: what is listed, and the drawing an unlisted byte comes from (20_memory R60, R79; log entry 5). -/
structure Flash where
  /-- Which drawing of `Config.arrayDraw` an unlisted byte reads as; renewed when the whole array is havocked. -/
  epoch : Nat
  /-- The bytes that differ from that drawing, addresses strictly rising. -/
  cells : List Host.Cell
deriving DecidableEq, Repr

/-- A set of addresses that is havocked together (20_memory R58). -/
inductive Region where
  /-- The whole array (R73, R74). -/
  | whole
  /-- `len` bytes from `lo` on: the pages or the sector of R72 and 70 R231. -/
  | span (lo len : Nat)
deriving DecidableEq, Repr

/-- PENDING: what the device does to the array when its busy period ends (R60). -/
inductive Pending where
  | none
  | program (a : BitVec 32) (d : List Byte)
  | erase (m : Nat)
  | havoc (r : Region)
deriving DecidableEq, Repr

/-- The reference device (R60) with its parameters (00_scope R6). -/
structure Device where
  /-- BUSY = SR1[0]. -/
  busy : Bool
  /-- WEL = SR1[1]. -/
  wel : Bool
  /-- ADS = SR3[0]. -/
  ads : Bool
  /-- SR1[7:2], which nothing changes. -/
  sr1Other : BitVec 6
  /-- SR2, which nothing changes. -/
  sr2 : Byte
  /-- SR3[7:1], which nothing changes. -/
  sr3Other : BitVec 7
  /-- ARRAY. -/
  array : Flash
  /-- PENDING. -/
  pending : Pending
  /-- How many more gaps between transactions pass before the completion step fires (R70; log entry 7). -/
  busyLeft : Nat
  /-- DEV_ID, constant. -/
  id : Byte
  /-- DEV_CAPACITY - 1, constant (R73). -/
  lastAddr : BitVec 32
  /-- DEV_PROGRAM_MODEL, constant. -/
  programModel : ProgramModel
  /-- DEV_UNALIGNED_PROGRAM, constant. -/
  unaligned : UnalignedProgram
  /-- DEV_4B_CMD_IN_3B_MODE, constant. -/
  mode3b : Mode3b
  /-- DEV_WEL_DURING_BUSY, constant. -/
  welBusy : WelBusy
deriving DecidableEq, Repr

/-- Who answers the transactions (10_state R38; log entry 15). -/
inductive Env where
  /-- The reference device. -/
  | reference
  /-- An environment of which nothing is assumed: every MISO byte is a draw, or one of `State.misoIn`. -/
  | unconstrained
deriving DecidableEq, Repr

/-- One transaction as a bus monitor sees it (60_exceptions R214; log entry 16). -/
structure BusXact where
  /-- The bytes sent on MOSI. -/
  tx : List Byte
  /-- The bytes received on MISO; none for a frame cut short. -/
  rx : List Byte
  /-- For a frame cut short by RST, the number of SCK cycles it got (70 R231). -/
  cut : Option Nat
deriving DecidableEq, Repr

/-- A move of the host (10_state R20, 30_encoding R100; log entry 9). -/
inductive HostEvent where
  /-- A request word with the 256 bytes that accompany it, if any. -/
  | request (w : BitVec 64) (data : Option Page)
  /-- The host takes bytes from the front of RDATA (R26). -/
  | takeRdata (n : Nat)
deriving DecidableEq, Repr

/-- A pulse of RST (70 R230, R231; log entry 12): it comes after `steps` more sequencer steps (an Xfer or a respond,
R24), and, if then a transaction begins, `bits` SCK cycles into its frame; it lasts for `hold` machine steps. -/
structure RstPulse where
  steps : Nat
  bits : Nat
  hold : Nat
deriving DecidableEq, Repr

/-- The machine. -/
structure State where
  /-- SEQ_STATE (R21). -/
  seqState : SeqState
  /-- REQ (R22). -/
  req : BitVec 64
  /-- WDATA (R23). -/
  wdata : Page
  /-- The sequencer step (R24), as the answers received so far in the operation in progress (log entry 11). -/
  answers : List (List Byte)
  /-- LOOP_S (R25). -/
  loopS : BitVec 20
  /-- LOOP_LAST (R25). -/
  loopLast : BitVec 20
  /-- RDATA (R26), the front byte first. -/
  rdata : List Byte
  /-- RESP (R27). -/
  resp : BitVec 64
  /-- RESP_VALID (R27). -/
  respValid : Bool
  /-- CS_N (R28). -/
  csN : Bool
  /-- SCK (R28). -/
  sck : Bool
  /-- MOSI (R28). -/
  mosi : Bool
  /-- The MISO bytes the encoder extracted from the last transaction (R121 to R129; log entry 10). -/
  result : List Byte
  /-- SCK_HZ, constant (R29). -/
  sckHz : Nat
  /-- CS_ID, constant (R29). -/
  csId : Nat
  /-- The reference device. -/
  dev : Device
  /-- Which environment answers. -/
  env : Env
  /-- MISO bytes an unconstrained environment is going to answer, the next one first (log entry 15). -/
  misoIn : List Byte
  /-- The host's pending moves, oldest first. -/
  host : List HostEvent
  /-- A pending RST pulse. -/
  rstIn : Option RstPulse
  /-- For how many more steps RST stays asserted. -/
  rstHeld : Nat
  /-- How many draws have been made (log entry 6). -/
  draws : Nat
  /-- The transactions so far, newest first. -/
  trace : List BusXact
deriving DecidableEq, Repr

/-- Why a step stops. The block itself never does (60_exceptions R200). -/
inductive Fault where
  /-- Raised by `step` alone: SEQ_STATE is RUN, but REQ and the answers name no transaction of an operation.
  No step leads to such a state. Safe (log entry 20). -/
  | noTransaction
deriving DecidableEq, Repr

/-- Why an instruction has no meaning. -/
inductive Refusal where
  /-- Raised by no arm of `exec`: every instruction of the opcode table has its meaning. Safe. -/
  | notModelled (mnemonic : String)
  /-- Raised by the meaning of ENC_PROG for a term that does not carry exactly 256 data bytes: ill-formed syntax, which
  the block never sends (40_command_encoder R128, 20_memory R67). Safe (log entry 21). -/
  | malformedFrame
deriving DecidableEq, Repr

/-- The device at power-on (20_memory R79): status bits and array are draws, PENDING is None; the parameters are at
their defaults where 92_eei_decisions section 2 gives one. -/
def Device.powerOn : Device :=
  { busy := Config.powerOnSr1.getLsbD 0
    wel := Config.powerOnSr1.getLsbD 1
    ads := Config.powerOnSr3.getLsbD 0
    sr1Other := Config.powerOnSr1.extractLsb' 2 6
    sr2 := Config.powerOnSr2
    sr3Other := Config.powerOnSr3.extractLsb' 1 7
    array := { epoch := 0, cells := [] }
    pending := .none
    busyLeft := Config.busyTime 0
    id := Config.devId
    lastAddr := Config.devLastAddr
    programModel := .and
    unaligned := .havoc
    mode3b := .havoc
    welBusy := .any }

/-- The machine after power-on: the block as 10_state R37 says, the device as 20_memory R79 says. -/
def State.reset : State :=
  { seqState := .idle
    req := 0
    wdata := Vector.replicate 256 0
    answers := []
    loopS := 0
    loopLast := 0
    rdata := []
    resp := 0
    respValid := false
    csN := true
    sck := false
    mosi := (Config.draw 0).getLsbD 0
    result := []
    sckHz := Config.sckHzDefault
    csId := Config.csId
    dev := Device.powerOn
    env := .reference
    misoIn := []
    host := []
    rstIn := none
    rstHeld := 0
    draws := 1
    trace := [] }

end Sys2Proof.Machine
end

