-- ==== Sys2Proof/Machine/Flags.lean ====
section
/-! DEFINITION. The flags: how the device's status bytes are put together (20_memory R60), which of their bits the block
decodes (41_status_decoder R140), and the response word (30_encoding R101). -/

namespace Sys2Proof.Machine

/-- SR1 from bit 7 to bit 0: SR1_OTHER, WEL, BUSY (R60). -/
def sr1Byte (other : BitVec 6) (wel busy : Bool) : Byte := other ++ BitVec.ofBool wel ++ BitVec.ofBool busy

/-- SR3 from bit 7 to bit 0: SR3_OTHER, ADS (R60). -/
def sr3Byte (other : BitVec 7) (ads : Bool) : Byte := other ++ BitVec.ofBool ads

/-- BUSY, bit 0 of SR1 (R140). -/
def busyBit (sr1 : Byte) : Bool := sr1.getLsbD 0

/-- WEL, bit 1 of SR1 (R140). -/
def welBit (sr1 : Byte) : Bool := sr1.getLsbD 1

/-- ADS, bit 0 of SR3 (R140). -/
def adsBit (sr3 : Byte) : Bool := sr3.getLsbD 0

/-- The code of a cause (60_exceptions R201). -/
def causeCode : Cause → BitVec 4
  | .none => 0
  | .busy => 1
  | .writeDisabled => 2
  | .verifyFailed => 3
  | .illegal => 4

/-- RESP from bit 63 to bit 0: VAL, 24 zeros, CAUSE, three zeros, OK (30_encoding R101). -/
def respWord (ok : Bool) (c : Cause) (val : BitVec 32) : BitVec 64 :=
  val ++ 0#24 ++ causeCode c ++ 0#3 ++ BitVec.ofBool ok

/-- OK, RESP[0]. -/
def respOk (r : BitVec 64) : Bool := r.getLsbD 0

/-- CAUSE, RESP[7:4]. -/
def respCause (r : BitVec 64) : BitVec 4 := r.extractLsb' 4 4

/-- VAL, RESP[63:32]. -/
def respVal (r : BitVec 64) : BitVec 32 := r.extractLsb' 32 32

/-- A boolean result in VAL[0] (R101). -/
def boolVal (b : Bool) : BitVec 32 := (BitVec.ofBool b).setWidth 32

/-- A register byte in VAL[7:0] (R101). -/
def byteVal (b : Byte) : BitVec 32 := b.setWidth 32

end Sys2Proof.Machine
end

