-- ==== Sys2Proof/Machine/Operands.lean ====
section
/-! DEFINITION. The operand forms: the page/sector address translator (43_address_translator) and the fields of a frame
as the device reads them (20_memory R61, R66 to R68). -/

namespace Sys2Proof.Machine

/-- pageAddress(p) = p << 8 (R170). -/
def pageAddress (p : BitVec 24) : BitVec 32 := p.setWidth 32 <<< 8

/-- sectorAddress(s) = s << 12 (R171). -/
def sectorAddress (m : BitVec 20) : BitVec 32 := m.setWidth 32 <<< 12

/-- sectorNumberFromPage(p) = p >> 4, a 20-bit sector number (R172). -/
def sectorNumberFromPage (p : BitVec 24) : BitVec 20 := (p >>> 4).setWidth 20

/-- The page that holds a byte address (20_memory R51, 43 R172). -/
def pageOfAddr (a : Nat) : Nat := a / Config.pageSize

/-- The sector that holds a byte address (R51, R172). -/
def sectorOfAddr (a : Nat) : Nat := a / Config.sectorSize

/-- The opcode of a frame, tx[0] (R61). -/
def frameOp (tx : List Byte) : Nat := (tx.getD 0 0).toNat

/-- The big-endian address in tx[1..4] (R66 to R68). -/
def frameAddr (tx : List Byte) : BitVec 32 := joinAddr (tx.getD 1 0) (tx.getD 2 0) (tx.getD 3 0) (tx.getD 4 0)

/-- The data bytes tx[5..] of a page program (R67). -/
def frameData (tx : List Byte) : List Byte := tx.drop 5

/-- The MISO bytes that the encoder extracts from a transaction, by opcode (30_encoding R90, 40 R121 to R129): rx[1]
of a status read, rx[4] of the identity read, rx[5..] of a memory read, none of the others. -/
def misoUsed (tx rx : List Byte) : List Byte :=
  match frameOp tx with
  | 0x05 => [rx.getD 1 0]
  | 0x35 => [rx.getD 1 0]
  | 0x15 => [rx.getD 1 0]
  | 0xAB => [rx.getD 4 0]
  | 0x13 => rx.drop 5
  | _ => []

end Sys2Proof.Machine
end

