-- ==== Sys2Proof/Machine/Memory.lean ====
section
/-! DEFINITION. The array of the reference device: its canonical form, and the accessors of 20_memory R56 to R59. -/

namespace Sys2Proof.Machine

/-! ## The canonical form (log entry 5) -/

/-- What a list of cells holds at an address; an unlisted byte is a draw (R79). -/
def cellsRead (e : Nat) : List Host.Cell → Nat → Byte
  | [], a => Config.arrayDraw e a
  | (x, v) :: t, a => if a = x then v else cellsRead e t a

/-- The cell to list for a byte, none where it is what an unlisted address reads as. -/
def cellEntry (e a : Nat) (b : Byte) : List Host.Cell := if b = Config.arrayDraw e a then [] else [(a, b)]

/-- Writing one byte, which keeps the addresses rising and lists no drawn byte. -/
def cellsWrite (e : Nat) : List Host.Cell → Nat → Byte → List Host.Cell
  | [], a, b => cellEntry e a b
  | (x, v) :: t, a, b =>
    if a < x then cellEntry e a b ++ (x, v) :: t
    else if a = x then cellEntry e a b ++ t
    else (x, v) :: cellsWrite e t a b

/-- Addresses strictly rising, and no cell equal to what an unlisted address reads as. -/
def cellsWf (e : Nat) : List Host.Cell → Bool
  | [] => true
  | (x, v) :: t => v != Config.arrayDraw e x && t.all (fun c => decide (x < c.1)) && cellsWf e t

/-- The array is in its canonical form. -/
def Flash.wf (m : Flash) : Bool := cellsWf m.epoch m.cells

/-- ARRAY[a]. -/
def Flash.read (m : Flash) (a : Nat) : Byte := cellsRead m.epoch m.cells a

/-- ARRAY[a] <- b. -/
def Flash.write (m : Flash) (a : Nat) (b : Byte) : Flash := { m with cells := cellsWrite m.epoch m.cells a b }

/-- The writes of indices 0 to n - 1, in that order. -/
def flashFold : Nat → (Nat → Flash → Flash) → Flash → Flash
  | 0, _, m => m
  | n + 1, f, m => f n (flashFold n f m)

/-! ## Program, erase and havoc (20_memory R57 to R59, R70 to R72) -/

/-- The byte a program leaves (R57): the AND of old and new, or under HAVOC the new byte on an erased cell and a draw
on any other. -/
def programmedByte (model : ProgramModel) (old new drawn : Byte) : Byte :=
  match model with
  | .and => old &&& new
  | .havoc => if old = 0xFF#8 then new else drawn

/-- MemWrite(a, 1, v) (R57); `n` names the draw. -/
def Flash.memWrite (model : ProgramModel) (n a : Nat) (v : Byte) (m : Flash) : Flash :=
  m.write a (programmedByte model (m.read a) v (Config.arrayDraw n a))

/-- The first byte of the page that holds an address. -/
def pageBase (a : Nat) : Nat := a - a % Config.pageSize

/-- Where the k-th byte of a page program goes: A + k for an aligned A (R71), wrapping within the page otherwise
(R72, WRAP). -/
def programTarget (a k : Nat) : Nat := pageBase a + (a % Config.pageSize + k) % Config.pageSize

/-- The completed page program of 256 bytes (R71, R72). -/
def Flash.programPage (model : ProgramModel) (n a : Nat) (d : List Byte) (m : Flash) : Flash :=
  flashFold Config.pageSize (fun k => Flash.memWrite model n (programTarget a k) (d.getD k 0)) m

/-- EraseSector(sec) below the capacity (R59). -/
def Flash.eraseSector (cap sec : Nat) (m : Flash) : Flash :=
  flashFold Config.sectorSize
    (fun k m => if sec * Config.sectorSize + k < cap then m.write (sec * Config.sectorSize + k) 0xFF#8 else m) m

/-- havoc(R) below the capacity (R58): every byte of the region becomes a draw of drawing `n`. -/
def Flash.havoc (cap n : Nat) (r : Region) (m : Flash) : Flash :=
  match r with
  | .whole => { epoch := n, cells := [] }
  | .span lo len =>
    flashFold len (fun k m => if lo + k < cap then m.write (lo + k) (Config.arrayDraw n (lo + k)) else m) m

end Sys2Proof.Machine
end

