-- ==== Sys2Proof/Machine/Device.lean ====
section
/-! DEFINITION. The reference device (20_memory R60 to R76, 70 R231): what it answers, what a command does at deselect,
its completion step, and the effect of a frame cut short. -/

namespace Sys2Proof.Machine

/-- DEV_CAPACITY (R73). -/
def Device.capacity (d : Device) : Nat := d.lastAddr.toNat + 1

/-- The lowest bit of the n-th draw. -/
def drawBit (n : Nat) : Bool := (Config.draw n).getLsbD 0

/-! ## MISO (R62, R65, R66, R69, R74, R75) -/

/-- SR1 as a status read returns it; while busy WEL follows DEV_WEL_DURING_BUSY, with `w` the draw (R62, R70). -/
def Device.sr1 (d : Device) (w : Bool) : Byte :=
  sr1Byte d.sr1Other (if d.busy && d.welBusy == .any then w else d.wel) d.busy

/-- SR3 as a status read returns it (R62). -/
def Device.sr3 (d : Device) : Byte := sr3Byte d.sr3Other d.ads

/-- MemRead(a, 1), a draw at or beyond the capacity (R56). -/
def Device.memRead (d : Device) (a : Nat) (drawn : Byte) : Byte :=
  if a < d.capacity then d.array.read a else drawn

/-- Whether the addressed commands behave as in R66 to R68: in 4-byte mode, or in 3-byte mode under SAME (R74). -/
def Device.addrModeOk (d : Device) : Bool := d.ads || d.mode3b == .same

/-- The i-th MISO byte of a transaction: what the command's rule defines, else a draw (R75). -/
def Device.misoByte (d : Device) (n : Nat) (tx : List Byte) (i : Nat) : Byte :=
  match frameOp tx with
  | 0x05 => if i = 1 then d.sr1 (drawBit (n + i)) else Config.draw (n + i)
  | 0x35 => if i = 1 then d.sr2 else Config.draw (n + i)
  | 0x15 => if i = 1 then d.sr3 else Config.draw (n + i)
  | 0xAB => if i = 4 && !d.busy then d.id else Config.draw (n + i)
  | 0x13 =>
    if 5 ≤ i && !d.busy && d.addrModeOk then d.memRead ((frameAddr tx).toNat + (i - 5)) (Config.draw (n + i))
    else Config.draw (n + i)
  | _ => Config.draw (n + i)

/-- The bytes received during a transaction, as many as are sent (00_scope R8, 20_memory R61). -/
def Device.answer (d : Device) (n : Nat) (tx : List Byte) : List Byte :=
  (List.range tx.length).map (d.misoByte n tx)

/-! ## Commands (R63, R64, R67, R68, R72 to R74) -/

/-- The bytes a page program touches: its page, or both pages of an unaligned one under HAVOC (R72). -/
def Device.programSpan (d : Device) (a : Nat) : Nat × Nat :=
  (pageBase a, if a % Config.pageSize ≠ 0 && d.unaligned == .havoc then 2 * Config.pageSize else Config.pageSize)

/-- PENDING of an accepted page program (R67, R72 to R74; log entry 18). -/
def Device.programPending (d : Device) (a : BitVec 32) (data : List Byte) : Pending :=
  let span := d.programSpan a.toNat
  if !d.addrModeOk then .havoc .whole
  else if d.capacity < span.1 + span.2 then .havoc .whole
  else if a.toNat % Config.pageSize ≠ 0 && d.unaligned == .havoc then .havoc (.span span.1 span.2)
  else .program a data

/-- PENDING of an accepted sector erase (R68, R73, R74). -/
def Device.erasePending (d : Device) (a : BitVec 32) : Pending :=
  let sec := sectorOfAddr a.toNat
  if !d.addrModeOk then .havoc .whole
  else if d.capacity < sec * Config.sectorSize + Config.sectorSize then .havoc .whole
  else .erase sec

/-- Acceptance of a program or an erase: only when not busy and write-enabled, it sets BUSY and PENDING (R67, R68). -/
def Device.accept (d : Device) (n : Nat) (p : Pending) : Device :=
  if !d.busy && d.wel then { d with busy := true, pending := p, busyLeft := Config.busyTime n } else d

/-- What a complete transaction does to the device at deselect (R61). -/
def Device.act (d : Device) (n : Nat) (tx : List Byte) : Device :=
  match frameOp tx with
  | 0x06 => if d.busy then d else { d with wel := true }
  | 0xB7 => if d.busy then d else { d with ads := true }
  | 0x12 => if tx.length = 261 then d.accept n (d.programPending (frameAddr tx) (frameData tx)) else d
  | 0x21 => if tx.length = 5 then d.accept n (d.erasePending (frameAddr tx)) else d
  | _ => d

/-! ## The completion step (R70) -/

/-- The array once PENDING has been applied; `n` names the drawing. -/
def Device.applyPending (d : Device) (n : Nat) : Flash :=
  match d.pending with
  | .none => d.array
  | .program a data => d.array.programPage d.programModel n a.toNat data
  | .erase sec => d.array.eraseSector d.capacity sec
  | .havoc r => d.array.havoc d.capacity n r

/-- The completion step: PENDING is applied, and BUSY, WEL and PENDING are cleared. -/
def Device.complete (d : Device) (n : Nat) : Device :=
  { d with array := d.applyPending n, busy := false, wel := false, pending := .none }

/-- One gap between two transactions: a busy device completes, or stays busy for one gap fewer (log entry 7). -/
def Device.elapse (d : Device) (n : Nat) : Device :=
  if d.busy then
    match d.busyLeft with
    | 0 => d.complete n
    | k + 1 => { d with busyLeft := k }
  else d

/-! ## A frame cut short by RST (70 R231; log entry 19) -/

/-- BUSY, WEL and PENDING become draws, PENDING one of None and Havoc(r). -/
def Device.scramble (d : Device) (n : Nat) (r : Region) : Device :=
  { d with
    busy := drawBit n
    wel := drawBit (n + 1)
    pending := if drawBit (n + 2) then .havoc r else .none
    busyLeft := Config.busyTime n }

/-- The effect of a truncated transaction. -/
def Device.truncate (d : Device) (n : Nat) (tx : List Byte) : Device :=
  match frameOp tx with
  | 0xB7 => { d with ads := drawBit n }
  | 0x06 => { d with wel := drawBit n }
  | 0x12 => d.scramble n (.span (pageBase (frameAddr tx).toNat) Config.pageSize)
  | 0x21 => d.scramble n (.span (sectorOfAddr (frameAddr tx).toNat * Config.sectorSize) Config.sectorSize)
  | _ => d

end Sys2Proof.Machine
end

