-- ==== Sys2Proof/Machine/Ops.lean ====
section
/-! DEFINITION. The named operations over the state: the bus transaction (20_memory R52), RDATA, the response that ends
an operation (30 R101, 60 R207), reset (70 R230, R231) and acceptance of a request (10 R21 to R27). -/

namespace Sys2Proof.Machine

/-! ## The environment -/

/-- A gap between two transactions: the reference device may complete in it (20_memory R70). -/
def State.elapse (s : State) : State :=
  { s with
    dev := match s.env with
      | .reference => s.dev.elapse s.draws
      | .unconstrained => s.dev
    draws := s.draws + 1 }

/-- `len` bytes taken from a list of inputs, draws of `n` on where the list has run out (10_state R38). -/
def openAnswer (n : Nat) (input : List Byte) (len : Nat) : List Byte :=
  (List.range len).map (fun i => input.getD i (Config.draw (n + i)))

/-- The MISO bytes of a transaction (10_state R38). -/
def State.answer (s : State) (tx : List Byte) : List Byte :=
  match s.env with
  | .reference => s.dev.answer s.draws tx
  | .unconstrained => openAnswer s.draws s.misoIn tx.length

/-! ## The transaction (20_memory R52) -/

/-- `select`: CS_N falls. -/
def State.select (s : State) : State := { s with csN := false }

/-- The full-duplex exchange of the bytes of a frame: the answer is received, recorded by the bus monitor, and the bytes
the encoder uses are kept (30 R90). -/
def State.exchange (tx : List Byte) (s : State) : State :=
  { s with
    result := misoUsed tx (s.answer tx)
    trace := { tx := tx, rx := s.answer tx, cut := none } :: s.trace
    misoIn := match s.env with
      | .reference => s.misoIn
      | .unconstrained => s.misoIn.drop tx.length
    draws := s.draws + tx.length }

/-- `deselect`: CS_N rises, the clock is idle low, MOSI is not sampled (any value, R37), and the device acts (R61). -/
def State.deselect (tx : List Byte) (s : State) : State :=
  { s with
    csN := true
    sck := false
    mosi := drawBit s.draws
    dev := match s.env with
      | .reference => s.dev.act s.draws tx
      | .unconstrained => s.dev
    draws := s.draws + 1 }

/-- Xfer(tx): one whole transaction, after the gap that precedes it. -/
def State.xfer (tx : List Byte) (s : State) : State := ((s.elapse.select).exchange tx).deselect tx

/-! ## Reset (70 R230, R231) -/

/-- The block's state after a reset (10_state R37): registers to which the table gives no value keep theirs
(log entry 2), and the device is not reached. -/
def State.blockReset (s : State) : State :=
  { s with
    seqState := .idle
    answers := []
    rdata := []
    respValid := false
    csN := true
    sck := false
    mosi := drawBit s.draws
    result := []
    draws := s.draws + 1 }

/-- RST is asserted: the operation in progress is abandoned at once (R231), and RST stays asserted for `hold` steps. -/
def State.assertRst (hold : Nat) (s : State) : State :=
  { s.blockReset with rstIn := none, rstHeld := hold }

/-- A frame cut short after `bits` SCK cycles: the device has the effect of R231, and the monitor sees the cut. -/
def State.truncate (tx : List Byte) (bits : Nat) (s : State) : State :=
  { s with
    trace := { tx := tx, rx := [], cut := some bits } :: s.trace
    dev := match s.env with
      | .reference => s.dev.truncate s.draws tx
      | .unconstrained => s.dev
    draws := s.draws + 3 }

/-- The next Xfer of the sequencer, and whether it was completed: a pulse of RST that is due stops it, between
transactions or inside the frame (R231; log entry 12). -/
def State.transact (tx : List Byte) (s : State) : State × Bool :=
  match s.rstIn with
  | none => (s.xfer tx, true)
  | some p =>
    match p.steps with
    | n + 1 => ({ s with rstIn := some { p with steps := n } }.xfer tx, true)
    | 0 =>
      if p.bits = 0 then (s.assertRst p.hold, false)
      else if p.bits < sckCycles tx then ((s.elapse.truncate tx p.bits).assertRst p.hold, false)
      else ({ s with rstIn := some { p with bits := 0 } }.xfer tx, true)

/-! ## Data, response, acceptance -/

/-- emit(bytes): the bytes go to the end of RDATA (10_state R26). -/
def State.emit (bytes : List Byte) (s : State) : State := { s with rdata := s.rdata ++ bytes }

/-- RESP is written and the block returns to IDLE (30 R101, 10 R27). -/
def State.writeResp (ok : Bool) (c : Cause) (val : BitVec 32) (s : State) : State :=
  { s with resp := respWord ok c val, respValid := true, seqState := .idle, answers := [] }

/-- respond(ok, cause, val), the one way an operation ends, success and failure alike: a failure saves no state, changes
no mode and vectors nowhere (60_exceptions R207). A pulse of RST that is due before it leaves no response (70 R231). -/
def State.respond (ok : Bool) (c : Cause) (val : BitVec 32) (s : State) : State :=
  match s.rstIn with
  | none => s.writeResp ok c val
  | some p =>
    match p.steps with
    | n + 1 => { s with rstIn := some { p with steps := n } }.writeResp ok c val
    | 0 => s.assertRst p.hold

/-- A request is accepted (10_state R21, R22, R23, R27): REQ is latched, WDATA too where data accompanies it, RESP_VALID
is cleared, and SEQ_STATE is RUN. -/
def State.accept (w : BitVec 64) (data : Option Page) (s : State) : State :=
  { s with
    seqState := .run
    req := w
    wdata := data.getD s.wdata
    answers := []
    respValid := false }

end Sys2Proof.Machine
end

