-- ==== Sys2Proof/Machine/Sequencer.lean ====
section
/-! DEFINITION. The sequencer (10_state R24): an operation as the sequence of transactions with early exits that the
pseudocode of files 41 to 45 gives it, how it is run from acceptance to its response, and how it is taken up again at
the sequencer step a state holds. -/

namespace Sys2Proof.Machine

/-- A sequence of the pseudocode (00_scope R8). It is no part of State, which holds only the answers received so far
(log entry 11). -/
inductive Prog where
  /-- `rx <- Xfer(tx)`, going on with the bytes the encoder extracts. -/
  | xfer (tx : List Byte) (k : List Byte → Prog)
  /-- `emit(bytes)`. -/
  | emit (bytes : List Byte) (p : Prog)
  /-- `LOOP_S <- s`, `LOOP_LAST <- last`. -/
  | setLoop (s last : BitVec 20) (p : Prog)
  /-- `respond(ok, cause, val)`. -/
  | respond (ok : Bool) (c : Cause) (val : BitVec 32)

/-- The answer of the transaction just completed becomes part of the sequencer step (R24). -/
def State.noteAnswer (s : State) : State := { s with answers := s.answers ++ [s.result] }

/-- LOOP_S and LOOP_LAST are written (R25). -/
def State.setLoop (i last : BitVec 20) (s : State) : State := { s with loopS := i, loopLast := last }

/-- The operation run to its end: its response, or the reset that abandons it (R21, 70 R231). -/
def Prog.run : Prog → State → State
  | .xfer tx k, s =>
    match s.transact tx with
    | (t, true) => Prog.run (k t.result) t.noteAnswer
    | (t, false) => t
  | .emit bytes p, s => Prog.run p (s.emit bytes)
  | .setLoop i last p, s => Prog.run p (s.setLoop i last)
  | .respond ok c val, s => s.respond ok c val

/-- The operation run up to its next transaction, or to its end if there is none before it. -/
def Prog.settle : Prog → State → State
  | .xfer _ _, s => s
  | .emit bytes p, s => Prog.settle p (s.emit bytes)
  | .setLoop i last p, s => Prog.settle p (s.setLoop i last)
  | .respond ok c val, s => s.respond ok c val

/-- The position in the sequence once the given answers have been received: the next transaction with what follows it,
none if there is no such transaction (R24, R38). -/
def Prog.position : Prog → List (List Byte) → Option (List Byte × (List Byte → Prog))
  | .xfer tx k, [] => some (tx, k)
  | .xfer _ k, a :: rest => Prog.position (k a) rest
  | .emit _ p, as => Prog.position p as
  | .setLoop _ _ p, as => Prog.position p as
  | .respond _ _ _, _ => none

/-- Serving an accepted request: RESP_VALID is clear and SEQ_STATE is RUN (R21, R27), and the sequence runs from its
first step. -/
def serve (p : Prog) (s : State) : Host.Outcome State Fault Refusal :=
  .next (p.run { s with seqState := .run, respValid := false, answers := [] })

end Sys2Proof.Machine
end

