-- ==== Sys2Proof/Machine/StatusDecoder.lean ====
section
/-! DEFINITION. The Status & Mode Inspector (41_status_decoder): the helpers of R140, each one transaction of its own,
and the operations READ_SR, BUSY, WRITE_ENABLED and ADDR_MODE_4B. -/

namespace Sys2Proof.Machine

/-- SR(n) for the register whose frame is given: one transaction (R140). -/
def srQuery (frame : List Byte) (k : Byte → Prog) : Prog := .xfer frame (fun r => k (r.getD 0 0))

/-- BUSY_Q() (R140). -/
def busyQ (k : Bool → Prog) : Prog := srQuery encSr1 (fun b => k (busyBit b))

/-- WEL_Q() (R140). -/
def welQ (k : Bool → Prog) : Prog := srQuery encSr1 (fun b => k (welBit b))

/-- ADS_Q() (R140). -/
def adsQ (k : Bool → Prog) : Prog := srQuery encSr3 (fun b => k (adsBit b))

/-- READ_SR: the raw register is returned (R141). -/
def readSrProg (frame : List Byte) : Prog := srQuery frame (fun b => .respond true .none (byteVal b))

/-- BUSY (R142). -/
def busyProg : Prog := busyQ (fun b => .respond true .none (boolVal b))

/-- WRITE_ENABLED (R143). -/
def writeEnabledProg : Prog := welQ (fun b => .respond true .none (boolVal b))

/-- ADDR_MODE_4B (R144). -/
def addrMode4bProg : Prog := adsQ (fun b => .respond true .none (boolVal b))

/-- READ_SR 1. -/
def execReadSr1 (s : State) : Host.Outcome State Fault Refusal := serve (readSrProg encSr1) s

/-- READ_SR 2. -/
def execReadSr2 (s : State) : Host.Outcome State Fault Refusal := serve (readSrProg encSr2) s

/-- READ_SR 3. -/
def execReadSr3 (s : State) : Host.Outcome State Fault Refusal := serve (readSrProg encSr3) s

/-- BUSY. -/
def execBusy (s : State) : Host.Outcome State Fault Refusal := serve busyProg s

/-- WRITE_ENABLED. -/
def execWriteEnabled (s : State) : Host.Outcome State Fault Refusal := serve writeEnabledProg s

/-- ADDR_MODE_4B. -/
def execAddrMode4b (s : State) : Host.Outcome State Fault Refusal := serve addrMode4bProg s

end Sys2Proof.Machine
end

