-- ==== Sys2Proof/Machine/CommandIssuer.lean ====
section
/-! DEFINITION. The Command Issuer (42_command_issuer R150 to R157): each sequence checks busy first, a program or erase
then checks write-enable, a failed check sends no command, and the two mode-setting commands are verified by re-reading.
A sequence is written over what follows it, `k`, which gets its result. -/

namespace Sys2Proof.Machine

/-- enter4BSeq (R151). -/
def enter4bSeq (k : Bool → Cause → Prog) : Prog :=
  busyQ fun busy =>
    if busy then k false .busy
    else .xfer encEnter4b fun _ =>
      adsQ fun ads => if ads then k true .none else k false .verifyFailed

/-- enableWriteSeq (R152). -/
def enableWriteSeq (k : Bool → Cause → Prog) : Prog :=
  busyQ fun busy =>
    if busy then k false .busy
    else .xfer encWren fun _ =>
      welQ fun wel => if wel then k true .none else k false .verifyFailed

/-- readIdSeq (R153): the value is 0x00 on a busy device. -/
def readIdSeq (k : Bool → Cause → Byte → Prog) : Prog :=
  busyQ fun busy =>
    if busy then k false .busy 0
    else .xfer encId fun r => k true .none (r.getD 0 0)

/-- readRawSeq(A, N) (R154): the data is emitted on success only. -/
def readRawSeq (a : BitVec 32) (n : Nat) (k : Bool → Cause → Prog) : Prog :=
  busyQ fun busy =>
    if busy then k false .busy
    else .xfer (encRead a n) fun data => .emit data (k true .none)

/-- The checks of a program or an erase, then its one command (R150, R155, R156). -/
def guardedSeq (command : List Byte) (k : Bool → Cause → Prog) : Prog :=
  busyQ fun busy =>
    if busy then k false .busy
    else welQ fun wel =>
      if wel then .xfer command fun _ => k true .none else k false .writeDisabled

/-- programPageSeq(A, D) (R155). -/
def programPageSeq (a : BitVec 32) (d : Page) (k : Bool → Cause → Prog) : Prog :=
  guardedSeq (encProg a d.toList) k

/-- eraseSectorSeq(A) (R156). -/
def eraseSectorSeq (a : BitVec 32) (k : Bool → Cause → Prog) : Prog := guardedSeq (encErase a) k

/-- `respond(ok, c, 0)`. -/
def respondPlain (ok : Bool) (c : Cause) : Prog := .respond ok c 0

/-- ENTER_4B (R151). -/
def enter4bProg : Prog := enter4bSeq respondPlain

/-- ENABLE_WRITE (R152). -/
def enableWriteProg : Prog := enableWriteSeq respondPlain

/-- READ_ID (R153). -/
def readIdProg : Prog := readIdSeq (fun ok c id => .respond ok c (byteVal id))

/-- READ_RAW (R154). -/
def readRawProg (a : BitVec 32) (n : BitVec 16) : Prog := readRawSeq a n.toNat respondPlain

/-- PROGRAM_PAGE with the latched data (R155). -/
def programPageProg (a : BitVec 32) (d : Page) : Prog := programPageSeq a d respondPlain

/-- ERASE_SECTOR (R156). -/
def eraseSectorProg (a : BitVec 32) : Prog := eraseSectorSeq a respondPlain

/-- ENTER_4B. -/
def execEnter4b (s : State) : Host.Outcome State Fault Refusal := serve enter4bProg s

/-- ENABLE_WRITE. -/
def execEnableWrite (s : State) : Host.Outcome State Fault Refusal := serve enableWriteProg s

/-- READ_ID. -/
def execReadId (s : State) : Host.Outcome State Fault Refusal := serve readIdProg s

/-- READ_RAW. -/
def execReadRaw (a : BitVec 32) (n : BitVec 16) (s : State) : Host.Outcome State Fault Refusal :=
  serve (readRawProg a n) s

/-- PROGRAM_PAGE. -/
def execProgramPage (a : BitVec 32) (s : State) : Host.Outcome State Fault Refusal :=
  serve (programPageProg a s.wdata) s

/-- ERASE_SECTOR. -/
def execEraseSector (a : BitVec 32) (s : State) : Host.Outcome State Fault Refusal := serve (eraseSectorProg a) s

end Sys2Proof.Machine
end

