-- ==== Sys2Proof/Machine/BlockStorage.lean ====
section
/-! DEFINITION. The erase/program/read sequencer (44_sequencer R180 to R187): each operation translates its page or
sector number and runs the Command Issuer sequence for that address. -/

namespace Sys2Proof.Machine

/-- READ_PAGE (R181). -/
def readPageProg (p : BitVec 24) : Prog := readRawSeq (pageAddress p) Config.pageSize respondPlain

/-- WRITE_PAGE with the latched data (R182). -/
def writePageProg (p : BitVec 24) (d : Page) : Prog := programPageSeq (pageAddress p) d respondPlain

/-- SECTOR_ERASE (R183). -/
def sectorEraseProg (m : BitVec 20) : Prog := eraseSectorSeq (sectorAddress m) respondPlain

/-- The loop of ERASE_UP_TO_PAGE with `n` sectors still to come after the current one, LOOP_S = LOOP_LAST - n (R184):
the first failing erase sequence ends it with its cause, and so does the success at LOOP_S = LOOP_LAST. -/
def eraseLoop (last : BitVec 20) : Nat → Prog
  | 0 =>
    .setLoop last last <| eraseSectorSeq (sectorAddress last) fun ok c =>
      if ok then respondPlain true .none else respondPlain false c
  | n + 1 =>
    .setLoop (last - BitVec.ofNat 20 (n + 1)) last <|
      eraseSectorSeq (sectorAddress (last - BitVec.ofNat 20 (n + 1))) fun ok c =>
        if ok then eraseLoop last n else respondPlain false c

/-- ERASE_UP_TO_PAGE (R184): from sector 0 to the sector of the page. -/
def eraseUpToPageProg (p : BitVec 24) : Prog :=
  eraseLoop (sectorNumberFromPage p) (sectorNumberFromPage p).toNat

/-- READ_PAGE. -/
def execReadPage (p : BitVec 24) (s : State) : Host.Outcome State Fault Refusal := serve (readPageProg p) s

/-- WRITE_PAGE. -/
def execWritePage (p : BitVec 24) (s : State) : Host.Outcome State Fault Refusal :=
  serve (writePageProg p s.wdata) s

/-- SECTOR_ERASE. -/
def execSectorErase (m : BitVec 20) (s : State) : Host.Outcome State Fault Refusal := serve (sectorEraseProg m) s

/-- ERASE_UP_TO_PAGE. -/
def execEraseUpToPage (p : BitVec 24) (s : State) : Host.Outcome State Fault Refusal :=
  serve (eraseUpToPageProg p) s

end Sys2Proof.Machine
end

