-- ==== Sys2Proof/Machine/Lifecycle.lean ====
section
/-! DEFINITION. Lifecycle (45_lifecycle R195, R196): BEGIN, which on the bus is ENTER_4B, and the identity check. -/

namespace Sys2Proof.Machine

/-- BEGIN (R195): the bus settings are constants and send nothing. -/
def beginProg : Prog := enter4bSeq respondPlain

/-- WORKS (R196): OK is always 1, and VAL[0] says whether the identity was read and is EXPECTED_ID. -/
def worksProg : Prog :=
  readIdSeq (fun ok _ id => .respond true .none (boolVal (ok && id == Config.expectedId)))

/-- BEGIN. -/
def execBegin (s : State) : Host.Outcome State Fault Refusal := serve beginProg s

/-- WORKS. -/
def execWorks (s : State) : Host.Outcome State Fault Refusal := serve worksProg s

end Sys2Proof.Machine
end

