-- ==== Sys2Proof/Machine/Translator.lean ====
section
/-! DEFINITION. The address translator's operations (43_address_translator R173 to R175): no bus transaction. -/

namespace Sys2Proof.Machine

/-- PAGE_ADDR (R173). -/
def pageAddrProg (p : BitVec 24) : Prog := .respond true .none (pageAddress p)

/-- SECTOR_ADDR (R174). -/
def sectorAddrProg (m : BitVec 20) : Prog := .respond true .none (sectorAddress m)

/-- SECTOR_OF_PAGE (R175). -/
def sectorOfPageProg (p : BitVec 24) : Prog := .respond true .none ((sectorNumberFromPage p).setWidth 32)

/-- PAGE_ADDR. -/
def execPageAddr (p : BitVec 24) (s : State) : Host.Outcome State Fault Refusal := serve (pageAddrProg p) s

/-- SECTOR_ADDR. -/
def execSectorAddr (m : BitVec 20) (s : State) : Host.Outcome State Fault Refusal := serve (sectorAddrProg m) s

/-- SECTOR_OF_PAGE. -/
def execSectorOfPage (p : BitVec 24) (s : State) : Host.Outcome State Fault Refusal := serve (sectorOfPageProg p) s

end Sys2Proof.Machine
end

