-- ==== Sys2Proof/Machine/Wire.lean ====
section
/-! DEFINITION. The meanings of the nine wire commands (40_command_encoder R121 to R129): each is one transaction with
the frame of R120. What the encoder extracts is left in `State.result` (`misoUsed`), what the device does is
`Device.act`. -/

namespace Sys2Proof.Machine

/-- One transaction with a given frame. -/
def sendFrame (tx : List Byte) (s : State) : Host.Outcome State Fault Refusal := .next (s.transact tx).1

/-- Read status register 1 (R121). -/
def execEncSr1 (s : State) : Host.Outcome State Fault Refusal := sendFrame encSr1 s

/-- Read status register 2 (R122). -/
def execEncSr2 (s : State) : Host.Outcome State Fault Refusal := sendFrame encSr2 s

/-- Read status register 3 (R123). -/
def execEncSr3 (s : State) : Host.Outcome State Fault Refusal := sendFrame encSr3 s

/-- Enter 4-byte address mode (R124). -/
def execEncEnter4b (s : State) : Host.Outcome State Fault Refusal := sendFrame encEnter4b s

/-- Write enable (R125). -/
def execEncWren (s : State) : Host.Outcome State Fault Refusal := sendFrame encWren s

/-- Read device ID (R126). -/
def execEncId (s : State) : Host.Outcome State Fault Refusal := sendFrame encId s

/-- Read memory (R127). -/
def execEncRead (a : BitVec 32) (n : BitVec 16) (s : State) : Host.Outcome State Fault Refusal :=
  sendFrame (encRead a n.toNat) s

/-- Page program (R128): the frame is always 261 bytes; a term with another number of data bytes is no instruction
(log entry 21). -/
def execEncProg (a : BitVec 32) (d : List Byte) (s : State) : Host.Outcome State Fault Refusal :=
  if d.length = Config.pageSize then sendFrame (encProg a d) s else .refused .malformedFrame

/-- Sector erase (R129). -/
def execEncErase (a : BitVec 32) (s : State) : Host.Outcome State Fault Refusal := sendFrame (encErase a) s

end Sys2Proof.Machine
end

