-- ==== Sys2Proof/Machine/Dispatch.lean ====
section
/-! DEFINITION. Dispatch: one arm a constructor of `Instr`. -/

namespace Sys2Proof.Machine

def exec (i : Instr) (s : State) : Host.Outcome State Fault Refusal :=
  match i with
  | .encSr1 => Sys2Proof.Machine.execEncSr1 s
  | .encSr2 => Sys2Proof.Machine.execEncSr2 s
  | .encSr3 => Sys2Proof.Machine.execEncSr3 s
  | .encEnter4b => Sys2Proof.Machine.execEncEnter4b s
  | .encWren => Sys2Proof.Machine.execEncWren s
  | .encId => Sys2Proof.Machine.execEncId s
  | .encRead a n => Sys2Proof.Machine.execEncRead a n s
  | .encProg a d => Sys2Proof.Machine.execEncProg a d s
  | .encErase a => Sys2Proof.Machine.execEncErase a s
  | .begin => Sys2Proof.Machine.execBegin s
  | .readSr1 => Sys2Proof.Machine.execReadSr1 s
  | .readSr2 => Sys2Proof.Machine.execReadSr2 s
  | .readSr3 => Sys2Proof.Machine.execReadSr3 s
  | .busy => Sys2Proof.Machine.execBusy s
  | .writeEnabled => Sys2Proof.Machine.execWriteEnabled s
  | .addrMode4b => Sys2Proof.Machine.execAddrMode4b s
  | .enter4b => Sys2Proof.Machine.execEnter4b s
  | .enableWrite => Sys2Proof.Machine.execEnableWrite s
  | .readId => Sys2Proof.Machine.execReadId s
  | .works => Sys2Proof.Machine.execWorks s
  | .readRaw a n => Sys2Proof.Machine.execReadRaw a n s
  | .programPage a => Sys2Proof.Machine.execProgramPage a s
  | .eraseSector a => Sys2Proof.Machine.execEraseSector a s
  | .readPage p => Sys2Proof.Machine.execReadPage p s
  | .writePage p => Sys2Proof.Machine.execWritePage p s
  | .sectorErase m => Sys2Proof.Machine.execSectorErase m s
  | .eraseUpToPage p => Sys2Proof.Machine.execEraseUpToPage p s
  | .pageAddr p => Sys2Proof.Machine.execPageAddr p s
  | .sectorAddr m => Sys2Proof.Machine.execSectorAddr m s
  | .sectorOfPage p => Sys2Proof.Machine.execSectorOfPage p s

end Sys2Proof.Machine
end

