-- ==== Sys2Proof/Machine/Fetch.lean ====
section
/-! DEFINITION. Where the next instruction comes from. In IDLE it is the request the host presents (10_state R21); in
RUN it is the frame of the transaction the sequencer step names (R24). A request is served whole, from its acceptance to
its response, by one step; a state in the middle of an operation goes on by one transaction a step (log entry 9). -/

namespace Sys2Proof.Machine

/-- The sequence of a host operation, with the data latched for it; a wire command is no operation of the host. -/
def opProg (i : Instr) (d : Page) : Option Prog :=
  match i with
  | .encSr1 => none
  | .encSr2 => none
  | .encSr3 => none
  | .encEnter4b => none
  | .encWren => none
  | .encId => none
  | .encRead _ _ => none
  | .encProg _ _ => none
  | .encErase _ => none
  | .begin => some beginProg
  | .readSr1 => some (readSrProg encSr1)
  | .readSr2 => some (readSrProg encSr2)
  | .readSr3 => some (readSrProg encSr3)
  | .busy => some busyProg
  | .writeEnabled => some writeEnabledProg
  | .addrMode4b => some addrMode4bProg
  | .enter4b => some enter4bProg
  | .enableWrite => some enableWriteProg
  | .readId => some readIdProg
  | .works => some worksProg
  | .readRaw a n => some (readRawProg a n)
  | .programPage a => some (programPageProg a d)
  | .eraseSector a => some (eraseSectorProg a)
  | .readPage p => some (readPageProg p)
  | .writePage p => some (writePageProg p d)
  | .sectorErase m => some (sectorEraseProg m)
  | .eraseUpToPage p => some (eraseUpToPageProg p)
  | .pageAddr p => some (pageAddrProg p)
  | .sectorAddr m => some (sectorAddrProg m)
  | .sectorOfPage p => some (sectorOfPageProg p)

/-- Whether 256 bytes of WDATA accompany the request (30_encoding R105). -/
def needsData : Instr → Bool
  | .programPage _ => true
  | .writePage _ => true
  | _ => false

/-! ## IDLE: the host port -/

/-- A request at the host port: an illegal word is answered without a transaction (60_exceptions R205); a program
request without its data is no request and is not accepted (30 R105, log entry 14); any other is accepted and served. -/
def serveRequest (w : BitVec 64) (data : Option Page) (s : State) (waiting : State) :
    Host.Outcome State Fault Refusal :=
  match decode (.req w) with
  | .error _ => .next ((s.accept w none).respond false .illegal 0)
  | .ok i =>
    if needsData i then
      match data with
      | none => .next waiting.elapse
      | some d => exec i (s.accept w (some d))
    else exec i (s.accept w none)

/-- One step in IDLE: the host's next move; without one only time passes. -/
def idleStep (s : State) : Host.Outcome State Fault Refusal :=
  match s.host with
  | [] => .next s.elapse
  | .takeRdata n :: rest => .next { s with rdata := s.rdata.drop n, host := rest }
  | .request w data :: rest => serveRequest w data { s with host := rest } s

/-! ## RUN: the sequencer step -/

/-- The transaction the sequencer step names, with what follows it. -/
def State.position (s : State) : Option (List Byte × (List Byte → Prog)) :=
  match decode (.req s.req) with
  | .error _ => none
  | .ok i => (opProg i s.wdata).bind (fun p => p.position s.answers)

/-- The operation goes on after its transaction has led from `s` to `t`; a reset has ended it. -/
def State.resume (s t : State) : State :=
  match t.seqState with
  | .idle => t
  | .run =>
    match s.position with
    | none => t
    | some (_, k) => (k t.result).settle t.noteAnswer

/-- One step in RUN: the wire command the sequencer step names is executed, and the operation goes on to its next
transaction or its response. -/
def runStep (s : State) : Host.Outcome State Fault Refusal :=
  match s.position with
  | none => .fault .noTransaction
  | some (tx, _) =>
    match decode (.frame tx) with
    | .error _ => .fault .noTransaction
    | .ok i =>
      match exec i s with
      | .next t => .next (s.resume t)
      | .fault f => .fault f
      | .refused r => .refused r

/-! ## RST (70 R230, R231) -/

/-- One step while RST is asserted: the block is held in reset, and time passes for the device. -/
def heldStep (n : Nat) (s : State) : Host.Outcome State Fault Refusal :=
  .next { s.elapse.blockReset with rstHeld := n }

/-- One step of the machine: RST first, then the sequencer in RUN or the host port in IDLE. -/
def stepOf (s : State) : Host.Outcome State Fault Refusal :=
  match s.rstHeld with
  | n + 1 => heldStep n s
  | 0 =>
    match s.rstIn with
    | some ⟨0, 0, hold⟩ => .next (s.assertRst hold)
    | _ =>
      match s.seqState with
      | .idle => idleStep s
      | .run => runStep s

/-! ## Placing one instruction where the next step takes it (log entry 17) -/

/-- A page of zeros, the operand data of a word of the opcode table. -/
def zeroPage : Page := Vector.replicate 256 0

/-- For a wire opcode: the request word of a host operation that sends it with zero operands, and the answers that lead
to it (not busy, then write-enabled). -/
def wireContext (op : Nat) : BitVec 64 × List (List Byte) :=
  match op with
  | 0x05 => (packOp 0x03, [])
  | 0x35 => (packReq 0x02 2 0 0, [])
  | 0x15 => (packReq 0x02 3 0 0, [])
  | 0xB7 => (packOp 0x06, [[0]])
  | 0x06 => (packOp 0x07, [[0]])
  | 0xAB => (packOp 0x08, [[0]])
  | 0x13 => (packReq 0x0A 0 0 0, [[0]])
  | 0x12 => (packReq 0x0B 0 0 0, [[0], [2]])
  | 0x21 => (packReq 0x0C 0 0 0, [[0], [2]])
  | _ => (0, [])

/-- The state whose next step runs the given word of the opcode table: a wire row in the middle of an operation that
sends it, a host row presented at the host port. -/
def placeWord (s : State) (nbits w : Nat) : State :=
  if nbits ≤ 8 then
    { s with
      seqState := .run
      req := (wireContext (w % 256)).1
      answers := (wireContext (w % 256)).2
      wdata := zeroPage
      rstIn := none
      rstHeld := 0 }
  else
    { s with
      seqState := .idle
      host := .request (BitVec.ofNat 64 w) (some zeroPage) :: s.host
      rstIn := none
      rstHeld := 0 }

end Sys2Proof.Machine
end

