-- ==== Sys2Proof/Machine/Step.lean ====
section
/-! DEFINITION. One step of the machine. -/

namespace Sys2Proof.Machine

/-- One step (`stepOf`). -/
def step (s : State) : Host.Outcome State Fault Refusal := stepOf s

/-- `s` with a word of the opcode table where `step` takes its next instruction (`placeWord`). -/
def State.withFetchWord (s : State) (nbits w : Nat) : State := placeWord s nbits w

end Sys2Proof.Machine
end

