-- ==== Sys2Proof/Safety.lean ====
section
/-! DEFINITION. The terms claims are stated in: what it is for an operation to have been answered, the rows of the
request table, the phases of the device, and the invariant every step keeps. -/

namespace Sys2Proof

/-! ## Kinds of instruction -/

/-- The wire commands, the first nine rows of the opcode table (40_command_encoder). -/
def Instr.isWire : Instr → Bool
  | .encSr1 => true
  | .encSr2 => true
  | .encSr3 => true
  | .encEnter4b => true
  | .encWren => true
  | .encId => true
  | .encRead _ _ => true
  | .encProg _ _ => true
  | .encErase _ => true
  | _ => false

/-- The rows (match, mask) of the host request words (30_encoding R103). -/
def hostRows : List (BitVec 64 × BitVec 64) :=
  [(0x0000000000000001#64, 0xFFFFFFFFFFFFFFFF#64), (0x0000000000000022#64, 0xFFFFFFFFFFFFFFFF#64),
   (0x0000000000000042#64, 0xFFFFFFFFFFFFFFFF#64), (0x0000000000000062#64, 0xFFFFFFFFFFFFFFFF#64),
   (0x0000000000000003#64, 0xFFFFFFFFFFFFFFFF#64), (0x0000000000000004#64, 0xFFFFFFFFFFFFFFFF#64),
   (0x0000000000000005#64, 0xFFFFFFFFFFFFFFFF#64), (0x0000000000000006#64, 0xFFFFFFFFFFFFFFFF#64),
   (0x0000000000000007#64, 0xFFFFFFFFFFFFFFFF#64), (0x0000000000000008#64, 0xFFFFFFFFFFFFFFFF#64),
   (0x0000000000000009#64, 0xFFFFFFFFFFFFFFFF#64), (0x000000000000000A#64, 0x000000000000FFFF#64),
   (0x000000000000000B#64, 0x00000000FFFFFFFF#64), (0x000000000000000C#64, 0x00000000FFFFFFFF#64),
   (0x000000000000000D#64, 0xFF000000FFFFFFFF#64), (0x000000000000000E#64, 0xFF000000FFFFFFFF#64),
   (0x000000000000000F#64, 0xFFF00000FFFFFFFF#64), (0x0000000000000010#64, 0xFF000000FFFFFFFF#64),
   (0x0000000000000011#64, 0xFF000000FFFFFFFF#64), (0x0000000000000012#64, 0xFFF00000FFFFFFFF#64),
   (0x0000000000000013#64, 0xFF000000FFFFFFFF#64)]

namespace Machine

/-! ## Answered operations -/

/-- A complete transaction. -/
def sent (tx rx : List Byte) : BusXact := { tx := tx, rx := rx, cut := none }

/-- The registers of the block and the inputs that no instruction writes. -/
structure SameBlock (s t : State) : Prop where
  req : t.req = s.req
  wdata : t.wdata = s.wdata
  sckHz : t.sckHz = s.sckHz
  csId : t.csId = s.csId
  env : t.env = s.env
  host : t.host = s.host
  rstIn : t.rstIn = s.rstIn
  rstHeld : t.rstHeld = s.rstHeld

/-- RDATA and the loop registers, which only READ_RAW, READ_PAGE and ERASE_UP_TO_PAGE write (10_state R25, R26). -/
structure SameData (s t : State) : Prop where
  rdata : t.rdata = s.rdata
  loopS : t.loopS = s.loopS
  loopLast : t.loopLast = s.loopLast

/-- `t` is the state in which an operation of `s` has been answered `respond(ok, c, val)` after exactly the
transactions `xs`, the oldest first: RESP and RESP_VALID are written, the block is IDLE, CS_N and SCK are at rest after a
transaction and untouched without one, and the registers of `SameBlock` are untouched. -/
structure Answered (s t : State) (xs : List BusXact) (ok : Bool) (c : Cause) (val : BitVec 32) : Prop where
  trace : t.trace = xs.reverse ++ s.trace
  resp : t.resp = respWord ok c val
  respValid : t.respValid = true
  idle : t.seqState = .idle
  answers : t.answers = []
  bus : if xs = [] then t.csN = s.csN ∧ t.sck = s.sck ∧ t.mosi = s.mosi else t.csN = true ∧ t.sck = false
  block : SameBlock s t

/-- An operation was abandoned by a reset (70 R231): no response, RDATA emptied, the block at rest. -/
structure Abandoned (s t : State) : Prop where
  resp : t.resp = s.resp
  respValid : t.respValid = false
  rdata : t.rdata = []
  idle : t.seqState = .idle
  answers : t.answers = []
  csN : t.csN = true
  sck : t.sck = false
  rstIn : t.rstIn = none

/-! ## The rounds of ERASE_UP_TO_PAGE (44_sequencer R184) -/

/-- The erase command of sector `j`: the address `j * 4096`, most significant byte first. -/
def eraseFrame (j : Nat) : List Byte :=
  [0x21#8, (BitVec.ofNat 32 (j * 4096)).extractLsb' 24 8, (BitVec.ofNat 32 (j * 4096)).extractLsb' 16 8,
    (BitVec.ofNat 32 (j * 4096)).extractLsb' 8 8, (BitVec.ofNat 32 (j * 4096)).extractLsb' 0 8]

/-- What one round of the loop receives: by its busy check, by its write-enable check and by its erase command. -/
structure EraseRound where
  busy : List Byte
  wel : List Byte
  cmd : List Byte
deriving DecidableEq, Repr

/-- Both checks of the round pass: BUSY is read 0 and WEL is read 1 (R156). -/
def EraseRound.Passes (r : EraseRound) : Prop :=
  r.busy.length = 2 ∧ (r.busy.getD 1 0).getLsbD 0 = false ∧
  r.wel.length = 2 ∧ (r.wel.getD 1 0).getLsbD 1 = true ∧ r.cmd.length = 5

/-- The transactions of rounds from sector `j` on: two status reads and the erase of the sector, a round. -/
def eraseRounds (j : Nat) : List EraseRound → List BusXact
  | [] => []
  | r :: rest =>
    sent [0x05#8, 0x00#8] r.busy :: sent [0x05#8, 0x00#8] r.wel :: sent (eraseFrame j) r.cmd ::
      eraseRounds (j + 1) rest

/-! ## The device -/

/-- The phases of the device (10_state R36). -/
inductive DevPhase where
  | idle (writeEnabled : Bool)
  | busy
deriving DecidableEq, Repr

/-- Busy iff SR1[0] = 1, and Idle(w) with w = SR1[1] (R36). -/
def Device.phase (d : Device) : DevPhase := if d.busy then .busy else .idle d.wel

/-- What no transaction and no completion changes in the device: its parameters, its identity and the status bits that
have no meaning (20_memory R60). -/
structure SameDevice (d e : Device) : Prop where
  sr1Other : e.sr1Other = d.sr1Other
  sr2 : e.sr2 = d.sr2
  sr3Other : e.sr3Other = d.sr3Other
  id : e.id = d.id
  lastAddr : e.lastAddr = d.lastAddr
  programModel : e.programModel = d.programModel
  unaligned : e.unaligned = d.unaligned
  mode3b : e.mode3b = d.mode3b
  welBusy : e.welBusy = d.welBusy

/-- The addressed commands behave as in 4-byte mode: ADS is set, or DEV_4B_CMD_IN_3B_MODE is SAME (20_memory R74). -/
def Device.Usable (d : Device) : Prop := d.ads = true ∨ d.mode3b = .same

/-- A program or an erase has been accepted: BUSY is set, PENDING is `p`, and the busy period has some length
(20_memory R67, R68). -/
def Device.Accepted (d e : Device) (p : Pending) : Prop :=
  ∃ n, e = { d with busy := true, pending := p, busyLeft := n }

/-! ## The invariant -/

/-- The reserved bits of RESP are 0, a cause is one of 0 to 4, and it is NONE where OK = 1 (30 R101, 60 R201). -/
def respLegal (r : BitVec 64) : Prop :=
  r.extractLsb' 1 3 = 0#3 ∧ r.extractLsb' 8 24 = 0#24 ∧ (respCause r).toNat ≤ 4 ∧
  (respOk r = true → respCause r = 0#4)

/-- What holds at reset and is kept by every step: the array is in its canonical form (log entry 5), the bus is at rest
between transactions (10_state R28), RESP is legal where RESP_VALID marks it valid (30 R101; before that nothing is said of
it), RESP_VALID is clear while an operation runs (R27), the
sequencer step is empty in IDLE and names a transaction in RUN (R24), and every frame that was put on the bus is one of
the nine wire commands, answered by as many bytes as were sent (30 R92). -/
structure State.Inv (s : State) : Prop where
  array : s.dev.array.wf = true
  csN : s.csN = true
  sck : s.sck = false
  resp : s.respValid = true → respLegal s.resp
  running : s.seqState = .run → s.respValid = false
  resting : s.seqState = .idle → s.answers = []
  named : s.seqState = .run → s.position.isSome = true
  frames : ∀ x ∈ s.trace, ∃ i : Instr, i.isWire = true ∧ WellFormed i ∧ decode (.frame x.tx) = .ok i ∧
    (x.cut = none → x.rx.length = x.tx.length)

end Machine

end Sys2Proof
end

