-- ==== Sys2Proof/Certificates/Slice0/Obligations.lean ====
section
/-! DEFINITION. The statements for the provers. Each docstring names the rule of spec/ it formalises. "No pulse of RST is
pending" is `s.rstIn = none`; `s.elapse.dev` is the device as the gap before the first transaction leaves it, which is
`s.dev` when it is not busy. -/

open Sys2Proof Sys2Proof.Machine

/-! ## Encoding (30_encoding, 40_command_encoder) -/

/-- Frames and request words written out from 30_encoding R90, R92, R103 and the examples of R108, R127, R129 decode to
the instructions they stand for. -/
def Obligations.WrittenOutWordsDecode : Prop :=
  decode (.frame [0x05#8, 0x00#8]) = .ok .encSr1 ∧
  decode (.frame [0xB7#8]) = .ok .encEnter4b ∧
  decode (.frame [0xAB#8, 0x00#8, 0x00#8, 0x00#8, 0x00#8]) = .ok .encId ∧
  decode (.frame [0x13#8, 0x12#8, 0x34#8, 0x56#8, 0x78#8, 0x00#8, 0x00#8]) = .ok (.encRead 0x12345678#32 2#16) ∧
  decode (.frame [0x21#8, 0x00#8, 0x00#8, 0x12#8, 0x34#8]) = .ok (.encErase 0x00001234#32) ∧
  decode (.req 0x0000000000000001#64) = .ok .begin ∧
  decode (.req 0x0000000000000062#64) = .ok .readSr3 ∧
  decode (.req 0x000010000100000A#64) = .ok (.readRaw 0x00001000#32 256#16) ∧
  decode (.req 0x000000100000000E#64) = .ok (.writePage 16#24) ∧
  decode (.req 0x000000010000000F#64) = .ok (.sectorErase 1#20) ∧
  decode (.req 0x0000001F00000010#64) = .ok (.eraseUpToPage 31#24) ∧
  decode (.req 0x0000000300000012#64) = .ok (.sectorAddr 3#20)

/-- Decoding the code of a well-formed instruction gives it back, with every operand at every value (R90, R92, R103). -/
def Obligations.DecodeOfEncodeIsTheInstruction : Prop :=
  ∀ i : Instr, WellFormed i → decode (encode i) = .ok i

/-- A code that decodes is the code of the instruction it decodes to, and that instruction is well formed: every frame
and every request word has one meaning (R90 to R93, R103, R104). -/
def Obligations.EncodeOfDecodeIsTheCode : Prop :=
  ∀ (c : Code) (i : Instr), decode c = .ok i → encode i = c ∧ WellFormed i

/-- A request word selects an operation exactly when REQ AND mask = match for a row of R103. -/
def Obligations.RequestIsLegalIffARowMatches : Prop :=
  ∀ w : BitVec 64, (∃ i, decode (.req w) = .ok i) ↔ ∃ r ∈ hostRows, w &&& r.2 = r.1

/-- The clauses of R104 are exactly the words that do not decode, and an illegal request at the host port of an IDLE
block is answered respond(0, ILLEGAL, 0) by the next step with no transaction and RDATA untouched (R205). That data
beside the word is ignored, so that WDATA is kept, is the model's choice (log entry 14), and so is that the step holds no
gap, so that the device is unchanged (log entry 7). -/
def Obligations.IllegalRequestIsAnsweredIllegal : Prop :=
  (∀ w : BitVec 64, (∃ e, decode (.req w) = .error e) ↔
    ((reqOp w).toNat = 0 ∨ 0x14 ≤ (reqOp w).toNat) ∨
    w.extractLsb' 7 9 ≠ 0#9 ∨
    ((reqOp w).toNat ≠ 2 ∧ w.extractLsb' 5 2 ≠ 0#2) ∨
    ((reqOp w).toNat = 2 ∧ w.extractLsb' 5 2 = 0#2) ∨
    ((reqOp w).toNat ≠ 0x0A ∧ w.extractLsb' 16 16 ≠ 0#16) ∨
    ((reqOp w).toNat ≤ 9 ∧ w.extractLsb' 32 32 ≠ 0#32) ∨
    ((reqOp w).toNat ∈ [0x0D, 0x0E, 0x10, 0x11, 0x13] ∧ w.extractLsb' 56 8 ≠ 0#8) ∨
    ((reqOp w).toNat ∈ [0x0F, 0x12] ∧ w.extractLsb' 52 12 ≠ 0#12)) ∧
  (∀ (s : State) (w : BitVec 64) (data : Option Page) (rest : List HostEvent) (e : DecodeError),
    s.seqState = .idle → s.rstHeld = 0 → s.rstIn = none → s.host = .request w data :: rest →
    decode (.req w) = .error e →
    ∃ t, step s = .next t ∧ t.resp = 0x0000000000000040#64 ∧ t.respValid = true ∧ t.seqState = .idle ∧
      t.trace = s.trace ∧ t.rdata = s.rdata ∧ t.dev = s.dev ∧ t.host = rest ∧ t.wdata = s.wdata)

/-- The serial stream (R53, R90): bit 7 of every byte comes first, stream bit 8 of an addressed frame is A[31] and
stream bit 39 is A[0], WDATA[k] stands at stream bits 40 + 8k to 47 + 8k, and a frame takes 8 SCK cycles a byte
(70 R241). -/
def Obligations.AddressBitsInTheStream : Prop :=
  (∀ (tx : List Byte) (k j : Nat), j < 8 → k < tx.length →
    (streamBits tx).getD (8 * k + j) false = (tx.getD k 0).getLsbD (7 - j)) ∧
  (∀ tx : List Byte, (streamBits tx).length = sckCycles tx ∧ sckCycles tx = 8 * tx.length) ∧
  (∀ (a : BitVec 32) (n : Nat) (d : List Byte) (j : Nat), j < 32 →
    (streamBits (encErase a)).getD (8 + j) false = a.getLsbD (31 - j) ∧
    (streamBits (encRead a n)).getD (8 + j) false = a.getLsbD (31 - j) ∧
    (streamBits (encProg a d)).getD (8 + j) false = a.getLsbD (31 - j)) ∧
  (∀ (a : BitVec 32) (d : List Byte) (k j : Nat), k < d.length → j < 8 →
    (streamBits (encProg a d)).getD (40 + 8 * k + j) false = (d.getD k 0).getLsbD (7 - j))

/-! ## The response word and the translator (30 R101, 43) -/

/-- `respond(ok, cause, val)` writes RESP = (val << 32) | (cause << 4) | ok; the fields read back, the reserved bits
are 0, and the causes have the codes of 60 R201. -/
def Obligations.ResponseWordFields : Prop :=
  (∀ (ok : Bool) (c : Cause) (val : BitVec 32),
    respWord ok c val =
      (val.setWidth 64 <<< 32) ||| ((causeCode c).setWidth 64 <<< 4) ||| (BitVec.ofBool ok).setWidth 64 ∧
    respOk (respWord ok c val) = ok ∧ respCause (respWord ok c val) = causeCode c ∧
    respVal (respWord ok c val) = val ∧
    (respWord ok c val).extractLsb' 1 3 = 0#3 ∧ (respWord ok c val).extractLsb' 8 24 = 0#24) ∧
  causeCode .none = 0#4 ∧ causeCode .busy = 1#4 ∧ causeCode .writeDisabled = 2#4 ∧ causeCode .verifyFailed = 3#4 ∧
  causeCode .illegal = 4#4

/-- pageAddress(p) = p * 256 and sectorAddress(s) = s * 4096, exactly, in [0, 0xFFFFFF00] and [0, 0xFFFFF000], and
multiples of 256 and 4096 (R170, R171). -/
def Obligations.PageAndSectorAddressesAreExact : Prop :=
  (∀ p : BitVec 24, (pageAddress p).toNat = p.toNat * 256 ∧ (pageAddress p).toNat ≤ 0xFFFFFF00 ∧
    (pageAddress p).toNat % 256 = 0 ∧ pageAddress p = p.setWidth 32 <<< 8) ∧
  (∀ m : BitVec 20, (sectorAddress m).toNat = m.toNat * 4096 ∧ (sectorAddress m).toNat ≤ 0xFFFFF000 ∧
    (sectorAddress m).toNat % 4096 = 0 ∧ sectorAddress m = m.setWidth 32 <<< 12)

/-- sectorNumberFromPage(p) = p / 16 = p >> 4, it is monotonic, and the laws that R172 draws from R170 to R172 hold
(they are marked as derived there). -/
def Obligations.SectorOfPageLaws : Prop :=
  (∀ p : BitVec 24, (sectorNumberFromPage p).toNat = p.toNat / 16 ∧ (sectorNumberFromPage p).toNat = p.toNat >>> 4) ∧
  (∀ p q : BitVec 24, p.toNat ≤ q.toNat → (sectorNumberFromPage p).toNat ≤ (sectorNumberFromPage q).toNat) ∧
  (∀ p : BitVec 24, (sectorAddress (sectorNumberFromPage p)).toNat ≤ (pageAddress p).toNat ∧
    (pageAddress p).toNat < (sectorAddress (sectorNumberFromPage p)).toNat + 4096) ∧
  (∀ (m : BitVec 20) (j : Nat), j < 16 → sectorNumberFromPage (BitVec.ofNat 24 (16 * m.toNat + j)) = m) ∧
  (∀ m : BitVec 20, pageAddress (BitVec.ofNat 24 (16 * m.toNat)) = sectorAddress m) ∧
  (∀ a : Nat, sectorOfAddr a = a >>> 12 ∧ pageOfAddr a = a >>> 8)

/-- PAGE_ADDR, SECTOR_ADDR and SECTOR_OF_PAGE (R173 to R175): the words that match select them with their operand, a
word with a wider operand is no instruction, and each answers OK = 1 with its number and no transaction, whatever the
state. -/
def Obligations.TranslatorOperationsAnswer : Prop :=
  (∀ w : BitVec 64,
    (w &&& 0xFF000000FFFFFFFF#64 = 0x11#64 ↔ decode (.req w) = .ok (.pageAddr (w.extractLsb' 32 24))) ∧
    (w &&& 0xFFF00000FFFFFFFF#64 = 0x12#64 ↔ decode (.req w) = .ok (.sectorAddr (w.extractLsb' 32 20))) ∧
    (w &&& 0xFF000000FFFFFFFF#64 = 0x13#64 ↔ decode (.req w) = .ok (.sectorOfPage (w.extractLsb' 32 24))) ∧
    ((reqOp w).toNat ∈ [0x11, 0x13] → w.extractLsb' 56 8 ≠ 0#8 → ∃ e, decode (.req w) = .error e) ∧
    ((reqOp w).toNat = 0x12 → w.extractLsb' 52 12 ≠ 0#12 → ∃ e, decode (.req w) = .error e)) ∧
  (∀ s : State, s.rstIn = none →
    (∀ p : BitVec 24, ∃ t, exec (.pageAddr p) s = .next t ∧
      Answered s t [] true .none (BitVec.ofNat 32 (p.toNat * 256)) ∧ SameData s t ∧ t.dev = s.dev) ∧
    (∀ m : BitVec 20, ∃ t, exec (.sectorAddr m) s = .next t ∧
      Answered s t [] true .none (BitVec.ofNat 32 (m.toNat * 4096)) ∧ SameData s t ∧ t.dev = s.dev) ∧
    (∀ p : BitVec 24, ∃ t, exec (.sectorOfPage p) s = .next t ∧
      Answered s t [] true .none (BitVec.ofNat 32 (p.toNat / 16)) ∧ SameData s t ∧ t.dev = s.dev))

/-! ## Wire commands (40_command_encoder, 20_memory) -/

/-- Every wire command (ENC_SR(1), ENC_SR(2), ENC_SR(3), ENC_ENTER4B, ENC_WREN, ENC_ID, ENC_READ, ENC_PROG, ENC_ERASE)
completes with exactly one transaction that sends its frame, receives as many bytes, and extracts rx[1], rx[4], rx[5..]
or nothing (R90, R121 to R129); nothing else of the block changes. -/
def Obligations.WireCommandIsOneTransaction : Prop :=
  ∀ (i : Instr) (tx : List Byte) (s : State), i.isWire = true → WellFormed i → encode i = .frame tx → s.rstIn = none →
    ∃ t rx, exec i s = .next t ∧ rx.length = tx.length ∧ t.trace = sent tx rx :: s.trace ∧
      t.result = (match i with
        | .encSr1 => [rx.getD 1 0]
        | .encSr2 => [rx.getD 1 0]
        | .encSr3 => [rx.getD 1 0]
        | .encId => [rx.getD 4 0]
        | .encRead _ _ => rx.drop 5
        | _ => []) ∧
      SameBlock s t ∧ SameData s t ∧ t.resp = s.resp ∧ t.respValid = s.respValid ∧ t.seqState = s.seqState ∧
      t.answers = s.answers ∧ t.csN = true ∧ t.sck = false

/-- A status read returns SR1, SR2 or SR3 as it stands at the transaction, whether or not the device is busy, and
changes no device state (R62); while the device is busy WEL is read as DEV_WEL_DURING_BUSY says. -/
def Obligations.StatusReadsReturnTheRegisters : Prop :=
  ∀ s : State, s.rstIn = none → s.env = .reference →
    (∃ t w, exec .encSr1 s = .next t ∧ t.dev = s.elapse.dev ∧
      t.result = [s.elapse.dev.sr1Other ++ BitVec.ofBool w ++ BitVec.ofBool s.elapse.dev.busy] ∧
      (s.elapse.dev.busy = false ∨ s.elapse.dev.welBusy = .keep → w = s.elapse.dev.wel)) ∧
    (∃ t, exec .encSr2 s = .next t ∧ t.dev = s.elapse.dev ∧ t.result = [s.elapse.dev.sr2]) ∧
    (∃ t, exec .encSr3 s = .next t ∧ t.dev = s.elapse.dev ∧
      t.result = [s.elapse.dev.sr3Other ++ BitVec.ofBool s.elapse.dev.ads])

/-- With no pulse of RST pending, write enable sets WEL and enter 4-byte mode sets ADS exactly when the device is not
busy, and no wire command clears ADS (R63, R64); a 0xB7 frame cut short by RST is another matter (70 R231). That the
reference device stands still in an unconstrained environment, where the mode need not stick, is the model's choice (log
entry 15). -/
def Obligations.WriteEnableAndModeCommands : Prop :=
  (∀ s : State, s.rstIn = none → s.env = .reference →
    (∃ t, exec .encWren s = .next t ∧
      t.dev = if s.elapse.dev.busy then s.elapse.dev else { s.elapse.dev with wel := true }) ∧
    (∃ t, exec .encEnter4b s = .next t ∧
      t.dev = if s.elapse.dev.busy then s.elapse.dev else { s.elapse.dev with ads := true })) ∧
  (∀ (i : Instr) (s t : State), i.isWire = true → s.rstIn = none → exec i s = .next t → s.dev.ads = true →
    t.dev.ads = true) ∧
  (∀ s : State, s.rstIn = none → s.env = .unconstrained → ∃ t, exec .encEnter4b s = .next t ∧ t.dev = s.dev)

/-- A page program or sector erase is accepted exactly when the device is not busy and WEL is set: BUSY and PENDING are
set and the array is not changed; otherwise nothing changes (R67, R68). PENDING is the program or the erase of the
containing sector, or the Havoc that R72 to R74 give for an unaligned program, a target beyond the capacity, and 3-byte
mode (which bytes an unaligned program targets beyond the capacity is the model's choice, log entry 18). -/
def Obligations.ProgramAndEraseAcceptance : Prop :=
  ∀ (s : State) (a : BitVec 32) (data : List Byte), s.rstIn = none → s.env = .reference → data.length = 256 →
    let d := s.elapse.dev
    let cap := d.lastAddr.toNat + 1
    let page := a.toNat / 256 * 256
    let sec := a.toNat / 4096
    ∃ t u, exec (.encProg a data) s = .next t ∧ exec (.encErase a) s = .next u ∧
      (¬ (d.busy = false ∧ d.wel = true) → t.dev = d ∧ u.dev = d) ∧
      (d.busy = false ∧ d.wel = true →
        d.Accepted t.dev
          (if d.ads = false ∧ d.mode3b = .havoc then .havoc .whole
          else if a.toNat % 256 ≠ 0 ∧ d.unaligned = .havoc then
            (if cap < page + 512 then .havoc .whole else .havoc (.span page 512))
          else if cap < page + 256 then .havoc .whole
          else .program a data) ∧
        d.Accepted u.dev
          (if d.ads = false ∧ d.mode3b = .havoc then .havoc .whole
          else if cap < sec * 4096 + 4096 then .havoc .whole
          else .erase sec))

/-- While BUSY = 1, every command other than the three status reads is rejected: it changes no device state, and every
MISO byte it receives is a draw (R69). -/
def Obligations.CommandsAreRejectedWhileBusy : Prop :=
  ∀ (i : Instr) (tx : List Byte) (s : State), i.isWire = true → WellFormed i → encode i = .frame tx →
    i ∉ [Instr.encSr1, .encSr2, .encSr3] → s.rstIn = none → s.env = .reference → s.elapse.dev.busy = true →
    ∃ t n, exec i s = .next t ∧ t.dev = s.elapse.dev ∧
      t.trace = sent tx ((List.range tx.length).map (fun k => Config.draw (n + k))) :: s.trace

/-- On an idle device the identity read returns DEV_ID in byte 4 (R65). A read returns at byte 5 + k the array byte at
A + k, if the address mode is usable and that address is below the capacity (R55, R56, R66), and a draw in every other
case: in 3-byte mode under HAVOC (R74), and at or beyond the capacity (R56, R73). The other bytes received, of the
opcode, the address and the don't-care positions, are draws (R75), and neither read changes the device. The form of a
draw is log entry 6. -/
def Obligations.IdentityAndMemoryReads : Prop :=
  ∀ (s : State) (a : BitVec 32) (n : BitVec 16), s.rstIn = none → s.env = .reference → s.dev.busy = false →
    (∃ t rx m, exec .encId s = .next t ∧ t.dev = s.dev ∧ rx.length = 5 ∧
      t.trace = sent [0xAB#8, 0x00#8, 0x00#8, 0x00#8, 0x00#8] rx :: s.trace ∧ t.result = [s.dev.id] ∧
      rx.getD 4 0 = s.dev.id ∧ ∀ k, k < 4 → rx.getD k 0 = Config.draw (m + k)) ∧
    (∃ t rx m, exec (.encRead a n) s = .next t ∧ t.dev = s.dev ∧ rx.length = 5 + n.toNat ∧
      t.trace = sent (encRead a n.toNat) rx :: s.trace ∧ t.result = rx.drop 5 ∧
      (∀ k, k < 5 → rx.getD k 0 = Config.draw (m + k)) ∧
      ∀ k, k < n.toNat →
        (s.dev.Usable → a.toNat + k < s.dev.lastAddr.toNat + 1 →
          rx.getD (5 + k) 0 = s.dev.array.read (a.toNat + k)) ∧
        (¬ s.dev.Usable ∨ s.dev.lastAddr.toNat + 1 ≤ a.toNat + k →
          rx.getD (5 + k) 0 = Config.draw (m + (5 + k))))

/-- An unconstrained environment may answer anything (10_state R38). How the model states it is the model's choice (log
entry 15): byte k received is byte k of the list State.misoIn where the list has one, and a draw beyond its end, each of
its own index; the transaction takes its bytes off the list, and the reference device stands still. -/
def Obligations.UnconstrainedEnvironmentAnswersAnything : Prop :=
  ∀ (i : Instr) (tx : List Byte) (s : State), i.isWire = true → WellFormed i → encode i = .frame tx → s.rstIn = none →
    s.env = .unconstrained →
    ∃ t rx n, exec i s = .next t ∧ t.trace = sent tx rx :: s.trace ∧ rx.length = tx.length ∧ t.dev = s.dev ∧
      t.misoIn = s.misoIn.drop tx.length ∧
      ∀ k, k < tx.length → rx.getD k 0 = if k < s.misoIn.length then s.misoIn.getD k 0 else Config.draw (n + k)

/-- The phases of the device (10_state R36, 20_memory R70) under a wire command with the gap before it and with no pulse
of RST pending (a frame cut short draws BUSY and WEL, 70 R231): it leaves Idle(w) for Idle(true) by a write enable only
and for Busy by a program or an erase with w = true only, and leaves Busy for Idle(false) only, from where a write enable
may set the latch again. That a busy period ends in the gap that finds busyLeft = 0 is the model's choice (log entry
7). -/
def Obligations.DevicePhaseTransitions : Prop :=
  ∀ (i : Instr) (s t : State), i.isWire = true → s.rstIn = none → s.env = .reference → exec i s = .next t →
    (s.dev.phase = t.dev.phase) ∨
    (i = .encWren ∧ s.dev.phase = .idle false ∧ t.dev.phase = .idle true) ∨
    (s.dev.phase = .idle true ∧ t.dev.phase = .busy ∧
      ((∃ a d, i = .encProg a d) ∨ ∃ a, i = .encErase a)) ∨
    (s.dev.phase = .busy ∧ s.dev.busyLeft = 0 ∧ (t.dev.phase = .idle false ∨ (i = .encWren ∧ t.dev.phase = .idle true)))

/-! ## The status decoder (41_status_decoder) -/

/-- READ_SR 1, 2, 3, BUSY, WRITE_ENABLED and ADDR_MODE_4B have no precondition and answer OK = 1 after one status read,
with the raw byte, or bit 0, bit 1 or bit 0 of it; they change nothing of the device (R140 to R145). -/
def Obligations.StatusOperationsNeverFail : Prop :=
  ∀ q ∈ ([(.readSr1, 0x05#8, fun b => b.setWidth 32), (.readSr2, 0x35#8, fun b => b.setWidth 32),
      (.readSr3, 0x15#8, fun b => b.setWidth 32),
      (.busy, 0x05#8, fun b => (BitVec.ofBool (b.getLsbD 0)).setWidth 32),
      (.writeEnabled, 0x05#8, fun b => (BitVec.ofBool (b.getLsbD 1)).setWidth 32),
      (.addrMode4b, 0x15#8, fun b => (BitVec.ofBool (b.getLsbD 0)).setWidth 32)] :
      List (Instr × Byte × (Byte → BitVec 32))),
    ∀ s : State, s.rstIn = none →
      ∃ t rx, exec q.1 s = .next t ∧ rx.length = 2 ∧
        Answered s t [sent [q.2.1, 0x00#8] rx] true .none (q.2.2 (rx.getD 1 0)) ∧ SameData s t ∧
        t.dev = s.elapse.dev

/-- With the reference device the status operations answer its bits: BUSY, ADS and SR2 as they stand, and WEL except
where a busy device draws it (R62, R70, R141 to R144). -/
def Obligations.StatusOperationsOnTheDevice : Prop :=
  ∀ s : State, s.rstIn = none → s.env = .reference →
    (∃ t, exec .busy s = .next t ∧
      t.resp = respWord true .none ((BitVec.ofBool s.elapse.dev.busy).setWidth 32)) ∧
    (s.elapse.dev.busy = false ∨ s.elapse.dev.welBusy = .keep →
      ∃ t, exec .writeEnabled s = .next t ∧
        t.resp = respWord true .none ((BitVec.ofBool s.elapse.dev.wel).setWidth 32)) ∧
    (∃ t, exec .addrMode4b s = .next t ∧
      t.resp = respWord true .none ((BitVec.ofBool s.elapse.dev.ads).setWidth 32)) ∧
    (∃ t w, exec .readSr1 s = .next t ∧
      t.resp = respWord true .none
        ((s.elapse.dev.sr1Other ++ BitVec.ofBool w ++ BitVec.ofBool s.elapse.dev.busy).setWidth 32) ∧
      (s.elapse.dev.busy = false ∨ s.elapse.dev.welBusy = .keep → w = s.elapse.dev.wel)) ∧
    (∃ t, exec .readSr2 s = .next t ∧ t.resp = respWord true .none (s.elapse.dev.sr2.setWidth 32)) ∧
    (∃ t, exec .readSr3 s = .next t ∧
      t.resp = respWord true .none ((s.elapse.dev.sr3Other ++ BitVec.ofBool s.elapse.dev.ads).setWidth 32))

/-! ## The Command Issuer and the lifecycle (42_command_issuer, 45_lifecycle) -/

/-- BEGIN, ENTER_4B and ENABLE_WRITE (R151, R152, R195), in any environment: the busy check alone, answered BUSY, or the
busy check, the command and the re-read of its bit, answered OK = 1 when the bit is set and VERIFY_FAILED when not. -/
def Obligations.ModeSettingIsVerifiedByRereading : Prop :=
  ∀ q ∈ ([(.begin, 0xB7#8, 0x15#8, 0), (.enter4b, 0xB7#8, 0x15#8, 0), (.enableWrite, 0x06#8, 0x05#8, 1)] :
      List (Instr × Byte × Byte × Nat)),
    ∀ s : State, s.rstIn = none →
      ∃ t rx1, exec q.1 s = .next t ∧ rx1.length = 2 ∧ SameData s t ∧
        (((rx1.getD 1 0).getLsbD 0 = true ∧ Answered s t [sent [0x05#8, 0x00#8] rx1] false .busy 0) ∨
        ((rx1.getD 1 0).getLsbD 0 = false ∧ ∃ rx2 rx3, rx2.length = 1 ∧ rx3.length = 2 ∧
          Answered s t [sent [0x05#8, 0x00#8] rx1, sent [q.2.1] rx2, sent [q.2.2.1, 0x00#8] rx3]
            ((rx3.getD 1 0).getLsbD q.2.2.2)
            (if (rx3.getD 1 0).getLsbD q.2.2.2 then .none else .verifyFailed) 0))

/-- On an idle reference device BEGIN and ENTER_4B answer OK = 1 and set ADS, and ENABLE_WRITE answers OK = 1 and sets
WEL; nothing else of the device changes (R63, R64, R151, R152, R195). -/
def Obligations.ModeSettingOnAnIdleDevice : Prop :=
  ∀ s : State, s.rstIn = none → s.env = .reference → s.dev.busy = false →
    (∀ i ∈ [Instr.begin, .enter4b], ∃ t, exec i s = .next t ∧ t.resp = 0x0000000000000001#64 ∧ t.respValid = true ∧
      t.dev = { s.dev with ads := true }) ∧
    (∃ t, exec .enableWrite s = .next t ∧ t.resp = 0x0000000000000001#64 ∧ t.respValid = true ∧
      t.dev = { s.dev with wel := true })

/-- READ_ID and WORKS (R153, R196, R197), in any environment: on busy READ_ID answers BUSY with VAL = 0 and WORKS
answers 0; else READ_ID answers the byte rx[4] of the identity read and WORKS whether it is 0x18. -/
def Obligations.IdentityOperations : Prop :=
  ∀ s : State, s.rstIn = none →
    ∃ t u rx1, exec .readId s = .next t ∧ exec .works s = .next u ∧ rx1.length = 2 ∧ SameData s t ∧ SameData s u ∧
      (((rx1.getD 1 0).getLsbD 0 = true ∧ Answered s t [sent [0x05#8, 0x00#8] rx1] false .busy 0 ∧
        Answered s u [sent [0x05#8, 0x00#8] rx1] true .none 0) ∨
      ((rx1.getD 1 0).getLsbD 0 = false ∧ ∃ rx2, rx2.length = 5 ∧
        Answered s t [sent [0x05#8, 0x00#8] rx1, sent [0xAB#8, 0x00#8, 0x00#8, 0x00#8, 0x00#8] rx2] true .none
          ((rx2.getD 4 0).setWidth 32) ∧
        Answered s u [sent [0x05#8, 0x00#8] rx1, sent [0xAB#8, 0x00#8, 0x00#8, 0x00#8, 0x00#8] rx2] true .none
          (if rx2.getD 4 0 = 0x18#8 then 1 else 0)))

/-- On an idle reference device READ_ID answers DEV_ID, and WORKS answers 1 for the identity 0x18 and 0 for any other
(R65, R153, R196). -/
def Obligations.IdentityOnAnIdleDevice : Prop :=
  ∀ s : State, s.rstIn = none → s.env = .reference → s.dev.busy = false →
    (∃ t, exec .readId s = .next t ∧ t.resp = respWord true .none (s.dev.id.setWidth 32) ∧ t.dev = s.dev) ∧
    (∃ t, exec .works s = .next t ∧ t.resp = respWord true .none (if s.dev.id = 0x18#8 then 1 else 0) ∧
      t.dev = s.dev)

/-- READ_RAW and READ_PAGE (R154, R181), in any environment: they gate on busy only; on busy they answer BUSY and emit
nothing, else they send one read frame for the address and count and emit the bytes received after the fifth. -/
def Obligations.ReadsGateOnBusyOnly : Prop :=
  ∀ (a : BitVec 32) (n : BitVec 16) (p : BitVec 24),
    ∀ q ∈ ([(.readRaw a n, a, n.toNat), (.readPage p, BitVec.ofNat 32 (p.toNat * 256), 256)] :
        List (Instr × BitVec 32 × Nat)),
      ∀ s : State, s.rstIn = none →
        ∃ t rx1, exec q.1 s = .next t ∧ rx1.length = 2 ∧ t.loopS = s.loopS ∧ t.loopLast = s.loopLast ∧
          (((rx1.getD 1 0).getLsbD 0 = true ∧ Answered s t [sent [0x05#8, 0x00#8] rx1] false .busy 0 ∧
            t.rdata = s.rdata) ∨
          ((rx1.getD 1 0).getLsbD 0 = false ∧ ∃ rx2, rx2.length = 5 + q.2.2 ∧
            Answered s t [sent [0x05#8, 0x00#8] rx1,
              sent ([0x13#8, q.2.1.extractLsb' 24 8, q.2.1.extractLsb' 16 8, q.2.1.extractLsb' 8 8,
                q.2.1.extractLsb' 0 8] ++ List.replicate q.2.2 0x00#8) rx2] true .none 0 ∧
            t.rdata = s.rdata ++ rx2.drop 5))

/-- On an idle reference device READ_RAW and READ_PAGE answer OK = 1 and deliver as many bytes as asked for, whatever
WEL is: from the address on the array bytes, if the address mode is usable and as far as the capacity reaches (R55,
R66), and draws in 3-byte mode under HAVOC (R74) and at or beyond the capacity (R56, R73); the device is unchanged
(R154, R181). The form of a draw is log entry 6. -/
def Obligations.ReadsDeliverTheArray : Prop :=
  ∀ (a : BitVec 32) (n : BitVec 16) (p : BitVec 24),
    ∀ q ∈ ([(.readRaw a n, a.toNat, n.toNat), (.readPage p, p.toNat * 256, 256)] : List (Instr × Nat × Nat)),
      ∀ s : State, s.rstIn = none → s.env = .reference → s.dev.busy = false →
        ∃ t bytes m, exec q.1 s = .next t ∧ t.resp = 0x0000000000000001#64 ∧ t.respValid = true ∧ t.dev = s.dev ∧
          t.rdata = s.rdata ++ bytes ∧ bytes.length = q.2.2 ∧
          ∀ k, k < q.2.2 →
            (s.dev.Usable → q.2.1 + k < s.dev.lastAddr.toNat + 1 →
              bytes.getD k 0 = s.dev.array.read (q.2.1 + k)) ∧
            (¬ s.dev.Usable ∨ s.dev.lastAddr.toNat + 1 ≤ q.2.1 + k → bytes.getD k 0 = Config.draw (m + k))

/-- PROGRAM_PAGE, WRITE_PAGE, ERASE_SECTOR and SECTOR_ERASE (R155, R156, R182, R183), in any environment: busy first,
then write-enable, each its own status read; a failed check ends the operation with its cause and no command, and when
both pass exactly the one command frame of the operation is sent and OK = 1 is answered. -/
def Obligations.ProgramsAndErasesCheckBusyThenWriteEnable : Prop :=
  ∀ (a : BitVec 32) (p : BitVec 24) (m : BitVec 20) (s : State), s.rstIn = none →
    ∀ q ∈ ([(.programPage a, 0x12#8, a, s.wdata.toList),
        (.writePage p, 0x12#8, BitVec.ofNat 32 (p.toNat * 256), s.wdata.toList),
        (.eraseSector a, 0x21#8, a, []), (.sectorErase m, 0x21#8, BitVec.ofNat 32 (m.toNat * 4096), [])] :
        List (Instr × Byte × BitVec 32 × List Byte)),
      ∃ t rx1, exec q.1 s = .next t ∧ rx1.length = 2 ∧ SameData s t ∧
        (((rx1.getD 1 0).getLsbD 0 = true ∧ Answered s t [sent [0x05#8, 0x00#8] rx1] false .busy 0) ∨
        ((rx1.getD 1 0).getLsbD 0 = false ∧ ∃ rx2, rx2.length = 2 ∧
          (((rx2.getD 1 0).getLsbD 1 = false ∧
            Answered s t [sent [0x05#8, 0x00#8] rx1, sent [0x05#8, 0x00#8] rx2] false .writeDisabled 0) ∨
          ((rx2.getD 1 0).getLsbD 1 = true ∧ ∃ rx3,
            Answered s t [sent [0x05#8, 0x00#8] rx1, sent [0x05#8, 0x00#8] rx2,
              sent ([q.2.1, q.2.2.1.extractLsb' 24 8, q.2.2.1.extractLsb' 16 8, q.2.2.1.extractLsb' 8 8,
                q.2.2.1.extractLsb' 0 8] ++ q.2.2.2) rx3] true .none 0))))

/-- On an idle, write-enabled reference device in a usable address mode, with the target below the capacity (and the
address page-aligned for PROGRAM_PAGE), PROGRAM_PAGE, WRITE_PAGE, ERASE_SECTOR and SECTOR_ERASE answer OK = 1 and the
device is busy with exactly that program of WDATA or that erase; the array is not yet changed (R67, R68, R155, R156,
R182, R183). -/
def Obligations.ProgramsAndErasesStartOnTheDevice : Prop :=
  ∀ (a : BitVec 32) (p : BitVec 24) (m : BitVec 20) (s : State), s.rstIn = none → s.env = .reference →
    s.dev.busy = false → s.dev.wel = true → s.dev.Usable →
    (a.toNat % 256 = 0 → a.toNat + 256 ≤ s.dev.lastAddr.toNat + 1 →
      ∃ t, exec (.programPage a) s = .next t ∧ t.resp = 0x0000000000000001#64 ∧ t.respValid = true ∧
        s.dev.Accepted t.dev (.program a s.wdata.toList)) ∧
    (p.toNat * 256 + 256 ≤ s.dev.lastAddr.toNat + 1 →
      ∃ t, exec (.writePage p) s = .next t ∧ t.resp = 0x0000000000000001#64 ∧ t.respValid = true ∧
        s.dev.Accepted t.dev (.program (BitVec.ofNat 32 (p.toNat * 256)) s.wdata.toList)) ∧
    (a.toNat / 4096 * 4096 + 4096 ≤ s.dev.lastAddr.toNat + 1 →
      ∃ t, exec (.eraseSector a) s = .next t ∧ t.resp = 0x0000000000000001#64 ∧ t.respValid = true ∧
        s.dev.Accepted t.dev (.erase (a.toNat / 4096))) ∧
    (m.toNat * 4096 + 4096 ≤ s.dev.lastAddr.toNat + 1 →
      ∃ t, exec (.sectorErase m) s = .next t ∧ t.resp = 0x0000000000000001#64 ∧ t.respValid = true ∧
        s.dev.Accepted t.dev (.erase m.toNat))

/-! ## ERASE_UP_TO_PAGE (44_sequencer R184 to R186) -/

/-- ERASE_UP_TO_PAGE p in any environment (R184, R185): rounds for the sectors 0, 1, ... in ascending order, each a status
read with BUSY = 0, a status read with WEL = 1 and the erase command of its sector, followed by nothing, with OK = 1,
after exactly p / 16 + 1 rounds; or, after fewer, by a status read with BUSY = 1 and the answer BUSY, or by one with
BUSY = 0 and one with WEL = 0 and the answer WRITE_DISABLED. LOOP_LAST is p / 16, LOOP_S the sector of the last round
begun, and there are at most 3 (p / 16 + 1) transactions. -/
def Obligations.EraseUpToPageErasesInOrder : Prop :=
  ∀ (p : BitVec 24) (s : State), s.rstIn = none →
    ∃ (t : State) (rounds : List EraseRound) (tail : List BusXact) (ok : Bool) (c : Cause),
      exec (.eraseUpToPage p) s = .next t ∧ Answered s t (eraseRounds 0 rounds ++ tail) ok c 0 ∧
      t.rdata = s.rdata ∧ t.loopLast.toNat = p.toNat / 16 ∧ (∀ r ∈ rounds, r.Passes) ∧
      (eraseRounds 0 rounds ++ tail).length ≤ 3 * (p.toNat / 16 + 1) ∧
      ((rounds.length = p.toNat / 16 + 1 ∧ t.loopS.toNat = p.toNat / 16 ∧ tail = [] ∧ ok = true ∧ c = .none) ∨
        (rounds.length ≤ p.toNat / 16 ∧ t.loopS.toNat = rounds.length ∧ ok = false ∧ ∃ rx1, rx1.length = 2 ∧
          (((rx1.getD 1 0).getLsbD 0 = true ∧ tail = [sent [0x05#8, 0x00#8] rx1] ∧ c = .busy) ∨
            ((rx1.getD 1 0).getLsbD 0 = false ∧ ∃ rx2, rx2.length = 2 ∧ (rx2.getD 1 0).getLsbD 1 = false ∧
              tail = [sent [0x05#8, 0x00#8] rx1, sent [0x05#8, 0x00#8] rx2] ∧ c = .writeDisabled))))

/-- ERASE_UP_TO_PAGE of a page of sector 0 on an idle, write-enabled reference device in a usable address mode erases
sector 0 only and answers OK = 1 (R184, 70 R235). -/
def Obligations.EraseUpToPageOfSectorZero : Prop :=
  ∀ (p : BitVec 24) (s : State), p.toNat ≤ 15 → s.rstIn = none → s.env = .reference → s.dev.busy = false →
    s.dev.wel = true → s.dev.Usable → 4096 ≤ s.dev.lastAddr.toNat + 1 →
    ∃ t rx1 rx2 rx3, exec (.eraseUpToPage p) s = .next t ∧
      Answered s t [sent [0x05#8, 0x00#8] rx1, sent [0x05#8, 0x00#8] rx2,
        sent [0x21#8, 0x00#8, 0x00#8, 0x00#8, 0x00#8] rx3] true .none 0 ∧
      s.dev.Accepted t.dev (.erase 0) ∧ t.loopS = 0#20 ∧ t.loopLast = 0#20 ∧ t.rdata = s.rdata

/-- With two or more sectors to erase, ERASE_UP_TO_PAGE on an idle, write-enabled reference device sends exactly one
erase command and answers OK = 0: BUSY while the first erase is still running, WRITE_DISABLED when it has completed.
No byte from sector 1 on changes (R184 and 70 R235, which mark this as derived). -/
def Obligations.EraseUpToPageStopsAfterOneErase : Prop :=
  ∀ (p : BitVec 24) (s : State), 16 ≤ p.toNat → s.rstIn = none → s.env = .reference → s.dev.busy = false →
    s.dev.wel = true → s.dev.Usable → 4096 ≤ s.dev.lastAddr.toNat + 1 → s.dev.array.wf = true →
    ∃ (t : State) (xs : List BusXact), exec (.eraseUpToPage p) s = .next t ∧ t.trace = xs.reverse ++ s.trace ∧
      (xs.filter (fun x => x.tx.head? == some 0x21#8)).map (fun x => x.tx) =
        [[0x21#8, 0x00#8, 0x00#8, 0x00#8, 0x00#8]] ∧
      (∀ x, 4096 ≤ x → t.dev.array.read x = s.dev.array.read x) ∧
      ((t.resp = 0x0000000000000010#64 ∧ t.dev.busy = true ∧ t.dev.pending = .erase 0 ∧ t.dev.array = s.dev.array) ∨
        (t.resp = 0x0000000000000020#64 ∧ t.dev.busy = false ∧ t.dev.wel = false ∧
          ∀ x, x < 4096 → t.dev.array.read x = 0xFF#8))

/-! ## Failures (60_exceptions) -/

/-- On a reference device that is busy after the gap, each of BEGIN, ENTER_4B, ENABLE_WRITE, READ_ID, READ_RAW,
PROGRAM_PAGE, ERASE_SECTOR, READ_PAGE, WRITE_PAGE, SECTOR_ERASE and ERASE_UP_TO_PAGE answers BUSY after one status
read, whatever WEL is, and changes neither RDATA nor the device (R150, R202, R206, 70 R239). -/
def Obligations.BusyDeviceRefusesEveryCommand : Prop :=
  ∀ (a : BitVec 32) (n : BitVec 16) (p : BitVec 24) (m : BitVec 20),
    ∀ i ∈ [Instr.begin, .enter4b, .enableWrite, .readId, .readRaw a n, .programPage a, .eraseSector a, .readPage p,
        .writePage p, .sectorErase m, .eraseUpToPage p],
      ∀ s : State, s.rstIn = none → s.env = .reference → s.elapse.dev.busy = true →
        ∃ t rx, exec i s = .next t ∧ Answered s t [sent [0x05#8, 0x00#8] rx] false .busy 0 ∧ t.rdata = s.rdata ∧
          t.dev = s.elapse.dev

/-- On an idle reference device whose write-enable latch is not set, PROGRAM_PAGE, WRITE_PAGE, ERASE_SECTOR,
SECTOR_ERASE and ERASE_UP_TO_PAGE answer WRITE_DISABLED after two status reads, and the device is unchanged
(R150, R202; the one-shot latch of 70 R233). -/
def Obligations.WriteDisabledDeviceRefusesProgramAndErase : Prop :=
  ∀ (a : BitVec 32) (p : BitVec 24) (m : BitVec 20),
    ∀ i ∈ [Instr.programPage a, .eraseSector a, .writePage p, .sectorErase m, .eraseUpToPage p],
      ∀ s : State, s.rstIn = none → s.env = .reference → s.dev.busy = false → s.dev.wel = false →
        ∃ t rx1 rx2, exec i s = .next t ∧
          Answered s t [sent [0x05#8, 0x00#8] rx1, sent [0x05#8, 0x00#8] rx2] false .writeDisabled 0 ∧
          t.rdata = s.rdata ∧ t.dev = s.dev

/-- An absent device (R204, which marks this as derived; that MISO is the list State.misoIn is log entry 15): with MISO
all ones every checked operation answers BUSY and WORKS answers 0; with MISO all zeros reads succeed with zero data,
programs and erases answer WRITE_DISABLED, BEGIN, ENTER_4B and ENABLE_WRITE answer VERIFY_FAILED, and WORKS 0. -/
def Obligations.AbsentDeviceIsDecodedAsRead : Prop :=
  ∀ (a : BitVec 32) (n : BitVec 16) (p : BitVec 24) (m : BitVec 20) (s : State) (len : Nat), s.rstIn = none →
    s.env = .unconstrained → 70000 ≤ len →
    (s.misoIn = List.replicate len 0xFF#8 →
      (∀ i ∈ [Instr.begin, .enter4b, .enableWrite, .readId, .readRaw a n, .programPage a, .eraseSector a, .readPage p,
          .writePage p, .sectorErase m, .eraseUpToPage p],
        ∃ t, exec i s = .next t ∧ t.resp = 0x0000000000000010#64 ∧ t.respValid = true) ∧
      ∃ t, exec .works s = .next t ∧ t.resp = 0x0000000000000001#64) ∧
    (s.misoIn = List.replicate len 0x00#8 →
      (∃ t, exec (.readRaw a n) s = .next t ∧ t.resp = 0x0000000000000001#64 ∧
        t.rdata = s.rdata ++ List.replicate n.toNat 0x00#8) ∧
      (∃ t, exec (.readPage p) s = .next t ∧ t.resp = 0x0000000000000001#64 ∧
        t.rdata = s.rdata ++ List.replicate 256 0x00#8) ∧
      (∀ i ∈ [Instr.programPage a, .eraseSector a, .writePage p, .sectorErase m, .eraseUpToPage p],
        ∃ t, exec i s = .next t ∧ t.resp = 0x0000000000000020#64) ∧
      (∀ i ∈ [Instr.begin, .enter4b, .enableWrite],
        ∃ t, exec i s = .next t ∧ t.resp = 0x0000000000000030#64) ∧
      ∃ t, exec .works s = .next t ∧ t.resp = 0x0000000000000001#64)

/-- No operation of the host traps or stops (R200): each answers, the block is IDLE again, and a failure has VAL = 0 and
one of the causes that R201 lets the operation raise; the status, translator and WORKS operations always answer OK = 1
with CAUSE = NONE. -/
def Obligations.EveryOperationAnswersWithItsCauses : Prop :=
  ∀ (i : Instr) (s : State), i.isWire = false → s.rstIn = none →
    ∃ t, exec i s = .next t ∧ t.respValid = true ∧ t.seqState = .idle ∧
      ((∃ val, t.resp = respWord true .none val) ∨
        ∃ c, t.resp = respWord false c 0 ∧ c ∈ (match i with
          | .begin => [Cause.busy, .verifyFailed]
          | .enter4b => [Cause.busy, .verifyFailed]
          | .enableWrite => [Cause.busy, .verifyFailed]
          | .readId => [Cause.busy]
          | .readRaw _ _ => [Cause.busy]
          | .readPage _ => [Cause.busy]
          | .programPage _ => [Cause.busy, .writeDisabled]
          | .eraseSector _ => [Cause.busy, .writeDisabled]
          | .writePage _ => [Cause.busy, .writeDisabled]
          | .sectorErase _ => [Cause.busy, .writeDisabled]
          | .eraseUpToPage _ => [Cause.busy, .writeDisabled]
          | _ => []))

/-- Against the reference device a response OK = 1 of PROGRAM_PAGE, WRITE_PAGE, ERASE_SECTOR, SECTOR_ERASE or
ERASE_UP_TO_PAGE means that the device took the command: the checks still hold when it is sent (70 R237, which marks
this as derived). -/
def Obligations.OkMeansTheDeviceTookTheCommand : Prop :=
  ∀ (a : BitVec 32) (p : BitVec 24) (m : BitVec 20),
    ∀ i ∈ [Instr.programPage a, .eraseSector a, .writePage p, .sectorErase m, .eraseUpToPage p],
      ∀ s t : State, s.rstIn = none → s.env = .reference → exec i s = .next t → respOk t.resp = true →
        t.dev.busy = true ∧ t.dev.wel = true ∧ t.dev.pending ≠ .none

/-! ## Frames: what an instruction leaves unchanged -/

/-- With no pulse of RST pending, every instruction leaves REQ, WDATA, the configuration, the environment and the inputs
unchanged; only ERASE_UP_TO_PAGE writes LOOP_S and LOOP_LAST (10_state R25), only READ_RAW and READ_PAGE write RDATA
(R26), and a wire command writes neither RESP, RESP_VALID, SEQ_STATE nor the sequencer step. CS_N and SCK are at rest
after an instruction, or, of the operations of the translator, which send no transaction, unchanged like MOSI. -/
def Obligations.InstructionsKeepTheBlock : Prop :=
  ∀ (i : Instr) (s t : State), s.rstIn = none → exec i s = .next t →
    SameBlock s t ∧
    ((∀ p, i ≠ .eraseUpToPage p) → t.loopS = s.loopS ∧ t.loopLast = s.loopLast) ∧
    ((∀ a n, i ≠ .readRaw a n) → (∀ p, i ≠ .readPage p) → t.rdata = s.rdata) ∧
    (i.isWire = true → t.resp = s.resp ∧ t.respValid = s.respValid ∧ t.seqState = s.seqState ∧
      t.answers = s.answers) ∧
    ((t.csN = true ∧ t.sck = false) ∨
      (((∃ p, i = .pageAddr p) ∨ (∃ m, i = .sectorAddr m) ∨ ∃ p, i = .sectorOfPage p) ∧
        t.trace = s.trace ∧ t.csN = s.csN ∧ t.sck = s.sck ∧ t.mosi = s.mosi))

/-- With no pulse of RST pending, an instruction changes in the device, apart from what the gap before it does, only
this: the translator operations nothing; the status, identity and read instructions nothing; BEGIN, ENTER_4B and
ENC_ENTER4B at most ADS; ENABLE_WRITE and ENC_WREN at most WEL; a program or an erase at most BUSY, PENDING and the time
left, and PENDING is then that of its own address and data; ERASE_UP_TO_PAGE at most the same for sector 0, and, with a
second sector to come, the completion of that erase (R62 to R68, R70, R82). On an idle device no instruction changes any
byte of the array but ERASE_UP_TO_PAGE of a page from 16 on, which changes none outside sector 0 when the erase of
sector 0 is what becomes pending. -/
def Obligations.InstructionsKeepTheDevice : Prop :=
  ∀ (i : Instr) (s t : State), s.rstIn = none → exec i s = .next t →
    let d := s.elapse.dev
    SameDevice s.dev t.dev ∧
    (match i with
      | .pageAddr _ => t.dev = s.dev
      | .sectorAddr _ => t.dev = s.dev
      | .sectorOfPage _ => t.dev = s.dev
      | .begin => t.dev = d ∨ t.dev = { d with ads := true }
      | .enter4b => t.dev = d ∨ t.dev = { d with ads := true }
      | .encEnter4b => t.dev = d ∨ t.dev = { d with ads := true }
      | .enableWrite => t.dev = d ∨ t.dev = { d with wel := true }
      | .encWren => t.dev = d ∨ t.dev = { d with wel := true }
      | .encProg a data => t.dev = d ∨ d.Accepted t.dev (d.programPending a data)
      | .encErase a => t.dev = d ∨ d.Accepted t.dev (d.erasePending a)
      | .programPage a => t.dev = d ∨ d.Accepted t.dev (d.programPending a s.wdata.toList)
      | .eraseSector a => t.dev = d ∨ d.Accepted t.dev (d.erasePending a)
      | .writePage p => t.dev = d ∨ d.Accepted t.dev (d.programPending (pageAddress p) s.wdata.toList)
      | .sectorErase m => t.dev = d ∨ d.Accepted t.dev (d.erasePending (sectorAddress m))
      | .eraseUpToPage p => t.dev = d ∨ ∃ e, d.Accepted e (d.erasePending 0) ∧
          (t.dev = e ∨ (16 ≤ p.toNat ∧ ∃ n, t.dev = e.complete n))
      | _ => t.dev = d) ∧
    ((∀ p, i = .eraseUpToPage p → p.toNat ≤ 15) → s.dev.busy = false →
      ∀ x, t.dev.array.read x = s.dev.array.read x) ∧
    (∀ p, i = .eraseUpToPage p → s.dev.busy = false → s.dev.array.wf = true → s.dev.erasePending 0 = .erase 0 →
      ∀ x, 4096 ≤ x → t.dev.array.read x = s.dev.array.read x)

/-! ## The completion step (20_memory R57 to R59, R70 to R72) -/

/-- EraseSector(m): when the busy period of an erase ends, every byte of the sector below the capacity is 0xFF and every
other byte is unchanged (R59), and BUSY, WEL and PENDING are cleared (R70). That a step in which the host does nothing is
a gap, and that the gap which finds busyLeft = 0 ends the period, is the model's choice (log entry 7). -/
def Obligations.CompletedEraseSetsTheSector : Prop :=
  ∀ (s : State) (sec : Nat), s.seqState = .idle → s.host = [] → s.rstIn = none → s.rstHeld = 0 → s.env = .reference →
    s.dev.array.wf = true → s.dev.busy = true → s.dev.busyLeft = 0 → s.dev.pending = .erase sec →
    ∃ t, step s = .next t ∧ t.dev.busy = false ∧ t.dev.wel = false ∧ t.dev.pending = .none ∧ t.dev.ads = s.dev.ads ∧
      ∀ x, t.dev.array.read x =
        if sec * 4096 ≤ x ∧ x < sec * 4096 + 4096 ∧ x < s.dev.lastAddr.toNat + 1 then 0xFF#8
        else s.dev.array.read x

/-- When the busy period of a program ends, byte D[k] has been programmed at A + k for an aligned A and at
page(A) + ((A mod 256 + k) mod 256) for any other, which is the WRAP setting of R72 (general knowledge in the spec): the
AND of the old and the new byte under AND, the new byte on an erased cell under HAVOC; every byte outside the page is
unchanged, and BUSY, WEL and PENDING are cleared (R57, R70 to R72). That a step in which the host does nothing is a gap,
and that the gap which finds busyLeft = 0 ends the period, is the model's choice (log entry 7). -/
def Obligations.CompletedProgramWritesThePage : Prop :=
  ∀ (s : State) (a : BitVec 32) (data : List Byte), s.seqState = .idle → s.host = [] → s.rstIn = none →
    s.rstHeld = 0 → s.env = .reference → s.dev.array.wf = true → s.dev.busy = true → s.dev.busyLeft = 0 →
    s.dev.pending = .program a data →
    ∃ t, step s = .next t ∧ t.dev.busy = false ∧ t.dev.wel = false ∧ t.dev.pending = .none ∧
      (∀ x, x < a.toNat / 256 * 256 ∨ a.toNat / 256 * 256 + 256 ≤ x → t.dev.array.read x = s.dev.array.read x) ∧
      (∀ k, k < 256 →
        let x := a.toNat / 256 * 256 + (a.toNat % 256 + k) % 256
        (a.toNat % 256 = 0 → x = a.toNat + k) ∧
        (s.dev.programModel = .and → t.dev.array.read x = s.dev.array.read x &&& data.getD k 0) ∧
        (s.dev.array.read x = 0xFF#8 → t.dev.array.read x = data.getD k 0))

/-- The model's gap (log entry 7, the model's choice: R70 says only that the completion step fires after an unspecified,
finite time): in a step in which the host does nothing an idle device is unchanged, and a busy one with busyLeft = k + 1
goes to k and is otherwise unchanged. With busyLeft = 0 the completion step of R70 fires. With PENDING None, as a busy
period that began at power-on or with a frame cut short may have it (R79, 70 R231), BUSY and WEL are cleared and nothing
else changes. With a Havoc of any region BUSY, WEL and PENDING are cleared and nothing but the array changes: of the
whole array (R73, R74) every byte below the capacity becomes a draw, and of a span every byte of it below the capacity,
while every other byte is unchanged (R58; one fresh drawing, log entry 5). -/
def Obligations.WaitingAndHavocKeepTheRest : Prop :=
  ∀ s : State, s.seqState = .idle → s.host = [] → s.rstIn = none → s.rstHeld = 0 → s.env = .reference →
    (s.dev.busy = false → ∃ t, step s = .next t ∧ t.dev = s.dev) ∧
    (∀ k, s.dev.busy = true → s.dev.busyLeft = k + 1 →
      ∃ t, step s = .next t ∧ t.dev = { s.dev with busyLeft := k }) ∧
    (s.dev.busy = true → s.dev.busyLeft = 0 → s.dev.pending = .none →
      ∃ t, step s = .next t ∧ t.dev = { s.dev with busy := false, wel := false }) ∧
    (∀ r, s.dev.busy = true → s.dev.busyLeft = 0 → s.dev.pending = .havoc r →
      ∃ t m n, step s = .next t ∧
        t.dev = { s.dev with array := m, busy := false, wel := false, pending := .none } ∧
        (r = .whole → ∀ x, x < s.dev.lastAddr.toNat + 1 → m.read x = Config.arrayDraw n x) ∧
        (∀ lo len, r = .span lo len → s.dev.array.wf = true → ∀ x, m.read x =
          if lo ≤ x ∧ x < lo + len ∧ x < s.dev.lastAddr.toNat + 1 then Config.arrayDraw n x else s.dev.array.read x))

/-- Round trip: WRITE_PAGE of a page whose 256 bytes are all 0xFF, then the completion step, then READ_PAGE of the same
page delivers the bytes of WDATA, under either program model (70 R234; the property S8 of 95_test_vectors). -/
def Obligations.WrittenPageReadsBack : Prop :=
  ∀ (p : BitVec 24) (s : State) (n : Nat), s.rstIn = none → s.env = .reference → s.dev.busy = false → s.dev.wel = true →
    s.dev.Usable → s.dev.array.wf = true → p.toNat * 256 + 256 ≤ s.dev.lastAddr.toNat + 1 →
    (∀ k, k < 256 → s.dev.array.read (p.toNat * 256 + k) = 0xFF#8) →
    ∃ t u, exec (.writePage p) s = .next t ∧
      exec (.readPage p) { t with dev := t.dev.complete n } = .next u ∧
      u.resp = 0x0000000000000001#64 ∧ u.rdata = s.rdata ++ s.wdata.toList

/-- A poll loop ends (70 R238): as many BUSY requests as the busy period has gaps left, and one more, run the device to
the end of its period, and the last answers VAL = 0. That the period is a number fixed when it begins is the model's
form of weak fairness (log entry 7). -/
def Obligations.PollingEndsTheBusyPeriod : Prop :=
  ∀ s : State, s.seqState = .idle → s.rstIn = none → s.rstHeld = 0 → s.env = .reference → s.dev.busy = true →
    s.host = List.replicate (s.dev.busyLeft + 1) (.request 0x0000000000000003#64 none) →
    ∃ t, Host.Core.run core (s.dev.busyLeft + 1) s = .next t ∧ t.dev.busy = false ∧ t.respValid = true ∧
      t.resp = 0x0000000000000001#64

/-! ## The step -/

/-- The step runs the decoded instruction. In IDLE a request that decodes is accepted (REQ and, for a program, WDATA
latched, RESP_VALID cleared, SEQ_STATE RUN) and executed; in RUN the wire command of the frame that the sequencer step
names is executed and the operation goes on from its answer (10_state R21, R24). That one step serves the operation whole
in IDLE and makes one transaction in RUN is the model's choice (log entry 9), and so is that data beside a request which
needs none is ignored (log entry 14). -/
def Obligations.StepRunsTheDecodedInstruction : Prop :=
  (∀ (s : State) (w : BitVec 64) (data : Option Page) (rest : List HostEvent) (i : Instr),
    s.seqState = .idle → s.rstHeld = 0 → s.rstIn = none → s.host = .request w data :: rest →
    decode (.req w) = .ok i →
    (needsData i = false → step s = exec i { s with
      host := rest, seqState := .run, req := w, answers := [], respValid := false }) ∧
    (∀ page, needsData i = true → data = some page → step s = exec i { s with
      host := rest, seqState := .run, req := w, wdata := page, answers := [], respValid := false })) ∧
  (∀ (s t : State) (tx : List Byte) (k : List Byte → Prog) (i : Instr),
    s.seqState = .run → s.rstHeld = 0 → s.rstIn = none → s.position = some (tx, k) → decode (.frame tx) = .ok i →
    exec i s = .next t → t.seqState = .run →
    step s = .next ((k t.result).settle { t with answers := t.answers ++ [t.result] }))

/-- A program request without its 256 bytes is no request: it is not accepted, and only time passes (30 R105). That it
stays at the host port is the model's choice (log entry 14). -/
def Obligations.ProgramRequestNeedsItsData : Prop :=
  ∀ (s : State) (w : BitVec 64) (rest : List HostEvent) (i : Instr),
    s.seqState = .idle → s.rstHeld = 0 → s.rstIn = none → s.host = .request w none :: rest →
    decode (.req w) = .ok i → needsData i = true →
    ∃ t, step s = .next t ∧ t.seqState = .idle ∧ t.host = s.host ∧ t.req = s.req ∧ t.resp = s.resp ∧
      t.respValid = s.respValid ∧ t.trace = s.trace ∧ t.rdata = s.rdata ∧ t.wdata = s.wdata ∧ t.dev = s.elapse.dev

/-- The host takes RDATA from the front, and the bytes it has not taken stay in order (10_state R26; the move is the
model's, log entry 9). -/
def Obligations.HostTakesRdataFromTheFront : Prop :=
  ∀ (s : State) (n : Nat) (rest : List HostEvent), s.seqState = .idle → s.rstHeld = 0 → s.rstIn = none →
    s.host = .takeRdata n :: rest → step s = .next { s with host := rest, rdata := s.rdata.drop n }

/-- A step that begins in IDLE ends in IDLE, and, with no RST, a request that it takes from the host port has been
answered: RESP_VALID is set (10_state R21, R27). That the operation of the request is served whole by one step is the
model's choice (log entry 9). -/
def Obligations.OperationsRunToTheirResponse : Prop :=
  ∀ s t : State, s.seqState = .idle → step s = .next t →
    t.seqState = .idle ∧
    ∀ (w : BitVec 64) (data : Option Page) (rest : List HostEvent), s.rstHeld = 0 → s.rstIn = none →
      s.host = .request w data :: rest → t.host = rest → t.respValid = true

/-- A host operation is exactly its transactions: from the state in which its first transaction is the next, some number
of machine steps, one transaction each, leads to the state that executing the operation whole gives, whatever the
environment answers and whenever RST comes (10_state R24, decision D1). -/
def Obligations.OperationIsItsTransactions : Prop :=
  ∀ (i : Instr) (s : State) (p : Prog), encode i = .req s.req → opProg i s.wdata = some p → s.rstHeld = 0 →
    ∃ n t, exec i s = .next t ∧
      Host.Core.run core n (p.settle { s with seqState := .run, respValid := false, answers := [] }) = .next t

/-- The invariant holds at reset (10_state R37, 20_memory R79). Of RESP, to which R37 gives no value, it says nothing
there, because RESP_VALID is 0. -/
def Obligations.ResetMeetsTheInvariant : Prop := State.reset.Inv

/-- Every step keeps the invariant (`State.Inv`): the array stays in its canonical form (log entry 5), the bus is at rest
between transactions, RESP is legal where RESP_VALID is set, the sequencer step fits SEQ_STATE, and only frames of the
nine wire commands have been put on the bus. -/
def Obligations.StepKeepsTheInvariant : Prop :=
  ∀ s t : State, s.Inv → step s = .next t → t.Inv

/-- In a state that meets the invariant the machine never faults or refuses: every step answers a next state (60 R200;
the fault and the refusal of the model are never reached). -/
def Obligations.StepNeverStops : Prop :=
  ∀ s : State, s.Inv → ∃ t, step s = .next t

/-- No step changes the configuration, the environment, or the constants of the device (10_state R29, R38,
20_memory R60). -/
def Obligations.ConfigurationIsConstant : Prop :=
  ∀ s t : State, step s = .next t →
    t.sckHz = s.sckHz ∧ t.csId = s.csId ∧ t.env = s.env ∧ SameDevice s.dev t.dev

/-! ## Reset (70 R230, R231) -/

/-- After reset the block is as the table of 10_state R37 says, with nothing pending in the device (20_memory R79), the
default clock (00_scope R4) and nothing listed in the array. -/
def Obligations.ResetState : Prop :=
  State.reset.seqState = .idle ∧ State.reset.answers = [] ∧ State.reset.rdata = [] ∧ State.reset.respValid = false ∧
  State.reset.csN = true ∧ State.reset.sck = false ∧ State.reset.dev.pending = .none ∧
  State.reset.dev.array.cells = [] ∧ State.reset.sckHz = 10000000 ∧ State.reset.dev.programModel = .and ∧
  State.reset.dev.unaligned = .havoc ∧ State.reset.dev.mode3b = .havoc ∧ State.reset.dev.welBusy = .any

/-- A pulse of RST between transactions, in IDLE or in RUN: an operation in progress is abandoned without a response,
RDATA is emptied, the block is at rest, and the device keeps everything. While RST stays asserted no request is accepted
(R230, R231). That RESP keeps its value is R231's word for a reset in RUN and the model's choice in IDLE (log entry 2);
that RST is a pulse of the state, counted in machine steps, and that each step under RST is a gap for the device, is the
model's choice (log entries 12 and 7). -/
def Obligations.ResetAbandonsAndHolds : Prop :=
  (∀ (s : State) (hold : Nat), s.rstHeld = 0 → s.rstIn = some ⟨0, 0, hold⟩ →
    ∃ t, step s = .next t ∧ Abandoned s t ∧ t.rstHeld = hold ∧ t.dev = s.dev ∧ t.trace = s.trace ∧ t.host = s.host) ∧
  (∀ (s : State) (n : Nat), s.rstHeld = n + 1 →
    ∃ t, step s = .next t ∧ t.rstHeld = n ∧ t.seqState = .idle ∧ t.respValid = false ∧ t.rdata = [] ∧
      t.csN = true ∧ t.sck = false ∧ t.host = s.host ∧ t.trace = s.trace ∧ t.dev = s.elapse.dev)

/-- A pulse of RST that is pending when a host operation is served: the operation is answered before the pulse comes, or
it is abandoned without a response, RESP keeping its value (R231). The form of the pulse is the model's choice (log entry
12). -/
def Obligations.ResetDuringAnOperation : Prop :=
  ∀ (i : Instr) (s t : State) (p : RstPulse), i.isWire = false → s.rstIn = some p → exec i s = .next t →
    (t.respValid = true ∧ t.seqState = .idle ∧ ∃ q, t.rstIn = some q ∧ q.hold = p.hold) ∨
    (Abandoned s t ∧ t.rstHeld = p.hold)

/-- A frame cut short by RST (R231): a status, identity or memory read has no effect on the device; of a 0xB7 or 0x06
frame ADS or WEL becomes some value; of a 0x12 or 0x21 frame BUSY and WEL become some value and PENDING is None or the
Havoc of the addressed page or sector; nothing else is changed. The form of the pulse is the model's choice (log entry
12), and so are the bounds of the addressed page and sector (log entry 19). -/
def Obligations.TruncatedFrameEffects : Prop :=
  ∀ (i : Instr) (tx : List Byte) (s : State) (bits hold : Nat), i.isWire = true → WellFormed i →
    encode i = .frame tx → s.env = .reference → s.rstIn = some ⟨0, bits, hold⟩ → 0 < bits → bits < 8 * tx.length →
    ∃ t, exec i s = .next t ∧ Abandoned s t ∧ t.rstHeld = hold ∧
      t.trace = { tx := tx, rx := [], cut := some bits } :: s.trace ∧
      (match i with
        | .encEnter4b => ∃ b, t.dev = { s.elapse.dev with ads := b }
        | .encWren => ∃ b, t.dev = { s.elapse.dev with wel := b }
        | .encProg a _ => ∃ b w n r, t.dev = { s.elapse.dev with busy := b, wel := w, busyLeft := n, pending := r } ∧
            (r = .none ∨ r = .havoc (.span (a.toNat / 256 * 256) 256))
        | .encErase a => ∃ b w n r, t.dev = { s.elapse.dev with busy := b, wel := w, busyLeft := n, pending := r } ∧
            (r = .none ∨ r = .havoc (.span (a.toNat / 4096 * 4096) 4096))
        | _ => t.dev = s.elapse.dev)

/-! ## ERASE_UP_TO_PAGE of several sectors (44_sequencer R184, R185) -/

/-- ERASE_UP_TO_PAGE p follows the answers (R184, R185; the vectors V5.10 and V5.11 of 95_test_vectors). In an
unconstrained environment a round takes nine bytes of State.misoIn (log entry 15), of which the second holds BUSY and the
fourth WEL. If BUSY = 0 and WEL = 1 for every sector 0 to p / 16, all of them are erased and OK = 1 is answered; if
the first failing round is that of sector k, the sectors 0 to k - 1 are erased and BUSY or WRITE_DISABLED is answered
after one or two status reads of that round. -/
def Obligations.EraseUpToPageFollowsTheAnswers : Prop :=
  ∀ (p : BitVec 24) (s : State), s.rstIn = none → s.env = .unconstrained →
    9 * (p.toNat / 16 + 1) ≤ s.misoIn.length →
    let busy := fun j => (s.misoIn.getD (9 * j + 1) 0).getLsbD 0
    let wel := fun j => (s.misoIn.getD (9 * j + 3) 0).getLsbD 1
    ((∀ j, j ≤ p.toNat / 16 → busy j = false ∧ wel j = true) →
      ∃ t rounds, exec (.eraseUpToPage p) s = .next t ∧ rounds.length = p.toNat / 16 + 1 ∧
        Answered s t (eraseRounds 0 rounds) true .none 0) ∧
    (∀ k, k ≤ p.toNat / 16 → (∀ j, j < k → busy j = false ∧ wel j = true) →
      (busy k = true → ∃ t rounds rx, exec (.eraseUpToPage p) s = .next t ∧ rounds.length = k ∧
        Answered s t (eraseRounds 0 rounds ++ [sent [0x05#8, 0x00#8] rx]) false .busy 0) ∧
      (busy k = false → wel k = false → ∃ t rounds rx1 rx2, exec (.eraseUpToPage p) s = .next t ∧ rounds.length = k ∧
        Answered s t (eraseRounds 0 rounds ++ [sent [0x05#8, 0x00#8] rx1, sent [0x05#8, 0x00#8] rx2])
          false .writeDisabled 0))
end

