-- ==== Sys2Proof/Laws/Decode.lean ====
section
/-! SUPPORT. Laws of the fields: those of a packed request word, and those of an encoded frame as the device reads
them. -/

namespace Sys2Proof

/-! ## Request words -/

theorem packReq_toNat (op : BitVec 5) (which : BitVec 2) (len : BitVec 16) (arg : BitVec 32) :
    (packReq op which len arg).toNat =
      arg.toNat * 2 ^ 32 + len.toNat * 2 ^ 16 + which.toNat * 2 ^ 5 + op.toNat := by
  have h := op.isLt
  have h2 := which.isLt
  have h3 := len.isLt
  have h4 := arg.isLt
  simp only [packReq, BitVec.toNat_append, BitVec.toNat_ofNat, Nat.zero_mod, Nat.or_zero]
  rw [← Nat.shiftLeft_add_eq_or_of_lt h3, ← Nat.shiftLeft_add_eq_or_of_lt h, ← Nat.shiftLeft_add_eq_or_of_lt h2]
  simp only [Nat.shiftLeft_eq]
  omega

@[simp] theorem reqOp_packReq (op : BitVec 5) (which : BitVec 2) (len : BitVec 16) (arg : BitVec 32) :
    reqOp (packReq op which len arg) = op := by
  apply BitVec.eq_of_toNat_eq
  have h := op.isLt
  simp only [reqOp, BitVec.extractLsb'_toNat, packReq_toNat, Nat.shiftRight_eq_div_pow]
  omega

@[simp] theorem reqWhich_packReq (op : BitVec 5) (which : BitVec 2) (len : BitVec 16) (arg : BitVec 32) :
    reqWhich (packReq op which len arg) = which := by
  apply BitVec.eq_of_toNat_eq
  have h := op.isLt
  have h2 := which.isLt
  simp only [reqWhich, BitVec.extractLsb'_toNat, packReq_toNat, Nat.shiftRight_eq_div_pow]
  omega

@[simp] theorem reqReserved_packReq (op : BitVec 5) (which : BitVec 2) (len : BitVec 16) (arg : BitVec 32) :
    reqReserved (packReq op which len arg) = 0#9 := by
  apply BitVec.eq_of_toNat_eq
  have h := op.isLt
  have h2 := which.isLt
  simp only [reqReserved, BitVec.extractLsb'_toNat, packReq_toNat, Nat.shiftRight_eq_div_pow, BitVec.toNat_ofNat]
  omega

@[simp] theorem reqLen_packReq (op : BitVec 5) (which : BitVec 2) (len : BitVec 16) (arg : BitVec 32) :
    reqLen (packReq op which len arg) = len := by
  apply BitVec.eq_of_toNat_eq
  have h := op.isLt
  have h2 := which.isLt
  have h3 := len.isLt
  simp only [reqLen, BitVec.extractLsb'_toNat, packReq_toNat, Nat.shiftRight_eq_div_pow]
  omega

@[simp] theorem reqArg_packReq (op : BitVec 5) (which : BitVec 2) (len : BitVec 16) (arg : BitVec 32) :
    reqArg (packReq op which len arg) = arg := by
  apply BitVec.eq_of_toNat_eq
  have h := op.isLt
  have h2 := which.isLt
  have h3 := len.isLt
  have h4 := arg.isLt
  simp only [reqArg, BitVec.extractLsb'_toNat, packReq_toNat, Nat.shiftRight_eq_div_pow]
  omega

/-! ## Addresses in frames -/

theorem joinAddr_toNat (a3 a2 a1 a0 : Byte) :
    (joinAddr a3 a2 a1 a0).toNat = a3.toNat * 2 ^ 24 + a2.toNat * 2 ^ 16 + a1.toNat * 2 ^ 8 + a0.toNat := by
  have h0 := a0.isLt
  have h1 := a1.isLt
  have h2 := a2.isLt
  simp only [joinAddr, BitVec.toNat_append]
  rw [← Nat.shiftLeft_add_eq_or_of_lt h2, ← Nat.shiftLeft_add_eq_or_of_lt h1, ← Nat.shiftLeft_add_eq_or_of_lt h0]
  simp only [Nat.shiftLeft_eq]
  omega

/-- The four bytes of an address put together again are the address (20_memory R54). -/
@[simp] theorem joinAddr_addr4 (a : BitVec 32) :
    joinAddr (a.extractLsb' 24 8) (a.extractLsb' 16 8) (a.extractLsb' 8 8) (a.extractLsb' 0 8) = a := by
  apply BitVec.eq_of_toNat_eq
  have := a.isLt
  simp only [joinAddr_toNat, BitVec.extractLsb'_toNat, Nat.shiftRight_eq_div_pow]
  omega

@[simp] theorem addr4_length (a : BitVec 32) : (addr4 a).length = 4 := rfl

@[simp] theorem encSr1_length : encSr1.length = 2 := rfl
@[simp] theorem encSr2_length : encSr2.length = 2 := rfl
@[simp] theorem encSr3_length : encSr3.length = 2 := rfl
@[simp] theorem encEnter4b_length : encEnter4b.length = 1 := rfl
@[simp] theorem encWren_length : encWren.length = 1 := rfl
@[simp] theorem encId_length : encId.length = 5 := rfl
@[simp] theorem encRead_length (a : BitVec 32) (n : Nat) : (encRead a n).length = 5 + n := by
  simp [encRead]; omega
@[simp] theorem encProg_length (a : BitVec 32) (d : List Byte) : (encProg a d).length = 5 + d.length := by
  simp [encProg]; omega
@[simp] theorem encErase_length (a : BitVec 32) : (encErase a).length = 5 := rfl

namespace Machine

@[simp] theorem frameOp_encSr1 : frameOp encSr1 = 0x05 := rfl
@[simp] theorem frameOp_encSr2 : frameOp encSr2 = 0x35 := rfl
@[simp] theorem frameOp_encSr3 : frameOp encSr3 = 0x15 := rfl
@[simp] theorem frameOp_encEnter4b : frameOp encEnter4b = 0xB7 := rfl
@[simp] theorem frameOp_encWren : frameOp encWren = 0x06 := rfl
@[simp] theorem frameOp_encId : frameOp encId = 0xAB := rfl
@[simp] theorem frameOp_encRead (a : BitVec 32) (n : Nat) : frameOp (encRead a n) = 0x13 := rfl
@[simp] theorem frameOp_encProg (a : BitVec 32) (d : List Byte) : frameOp (encProg a d) = 0x12 := rfl
@[simp] theorem frameOp_encErase (a : BitVec 32) : frameOp (encErase a) = 0x21 := rfl

@[simp] theorem frameAddr_encRead (a : BitVec 32) (n : Nat) : frameAddr (encRead a n) = a := by
  simp [frameAddr, encRead, addr4]

@[simp] theorem frameAddr_encProg (a : BitVec 32) (d : List Byte) : frameAddr (encProg a d) = a := by
  simp [frameAddr, encProg, addr4]

@[simp] theorem frameAddr_encErase (a : BitVec 32) : frameAddr (encErase a) = a := by
  simp [frameAddr, encErase, addr4]

@[simp] theorem frameData_encProg (a : BitVec 32) (d : List Byte) : frameData (encProg a d) = d := rfl

end Machine

end Sys2Proof
end

