-- ==== Sys2Proof/Laws/Memory.lean ====
section
/-! SUPPORT. Laws of the array: every memory operation keeps the canonical form, a read after a write gives the byte
written, and a write leaves every other byte alone. -/

namespace Sys2Proof.Machine

/-! ## The canonical form -/

theorem cellsWf_cons (e x : Nat) (v : Byte) (t : List Host.Cell) :
    cellsWf e ((x, v) :: t) = true ↔
      v ≠ Config.arrayDraw e x ∧ (∀ c ∈ t, x < c.1) ∧ cellsWf e t = true := by
  simp [cellsWf, and_assoc]

/-- The addresses a written list holds: the old ones and perhaps the written one. -/
theorem mem_cellsWrite {e a : Nat} {b : Byte} {l : List Host.Cell} {c : Host.Cell}
    (h : c ∈ cellsWrite e l a b) : c.1 = a ∨ c ∈ l := by
  induction l with
  | nil =>
    simp only [cellsWrite, cellEntry] at h
    split at h <;> simp_all
  | cons p t ih =>
    obtain ⟨x, v⟩ := p
    simp only [cellsWrite, cellEntry] at h
    split at h
    · split at h <;> simp_all
      rcases h with rfl | h <;> simp_all
    · split at h
      · split at h <;> simp_all
        rcases h with rfl | h <;> simp_all
      · simp only [List.mem_cons] at h
        rcases h with rfl | h
        · exact .inr (by simp)
        · rcases ih h with h | h
          · exact .inl h
          · exact .inr (by simp [h])

theorem cellsWrite_wf (e a : Nat) (b : Byte) (l : List Host.Cell) (h : cellsWf e l = true) :
    cellsWf e (cellsWrite e l a b) = true := by
  induction l with
  | nil => simp only [cellsWrite, cellEntry]; split <;> simp_all [cellsWf]
  | cons p t ih =>
    obtain ⟨x, v⟩ := p
    obtain ⟨hv, ht, hw⟩ := (cellsWf_cons e x v t).1 h
    simp only [cellsWrite, cellEntry]
    split
    · rename_i hax
      split
      · exact h
      · rename_i hb
        refine (cellsWf_cons e a b _).2 ⟨hb, ?_, h⟩
        intro c hc
        rcases List.mem_cons.1 hc with rfl | hc
        · exact hax
        · exact Nat.lt_trans hax (ht c hc)
    · split
      · rename_i hax
        split
        · exact hw
        · rename_i hb
          exact (cellsWf_cons e a b _).2 ⟨hb, fun c hc => hax ▸ ht c hc, hw⟩
      · refine (cellsWf_cons e x v _).2 ⟨hv, fun c hc => ?_, ih hw⟩
        rcases mem_cellsWrite hc with rfl | hc
        · omega
        · exact ht c hc

theorem cellsRead_of_lt {e a : Nat} {l : List Host.Cell} (h : ∀ c ∈ l, a < c.1) :
    cellsRead e l a = Config.arrayDraw e a := by
  induction l with
  | nil => rfl
  | cons p t ih =>
    have := h p (by simp)
    simp only [cellsRead]
    rw [if_neg (by omega), ih fun c hc => h c (by simp [hc])]

theorem cellsRead_write (e a a' : Nat) (b : Byte) (l : List Host.Cell) (h : cellsWf e l = true) :
    cellsRead e (cellsWrite e l a b) a' = if a' = a then b else cellsRead e l a' := by
  induction l with
  | nil =>
    simp only [cellsWrite, cellEntry]
    split <;> simp_all [cellsRead]
  | cons p t ih =>
    obtain ⟨x, v⟩ := p
    obtain ⟨-, ht, hw⟩ := (cellsWf_cons e x v t).1 h
    simp only [cellsWrite, cellEntry]
    split
    · rename_i hax
      split
      · rename_i hb
        by_cases haa : a' = a
        · subst haa
          rw [if_pos rfl, hb]
          refine cellsRead_of_lt fun c hc => ?_
          rcases List.mem_cons.1 hc with rfl | hc
          · exact hax
          · exact Nat.lt_trans hax (ht c hc)
        · simp [haa]
      · simp [cellsRead]
    · split
      · rename_i _ hax
        subst hax
        split
        · rename_i hb
          by_cases haa : a' = a
          · subst haa
            rw [if_pos rfl, hb]
            exact cellsRead_of_lt ht
          · simp [haa, cellsRead]
        · by_cases haa : a' = a <;> simp [haa, cellsRead]
      · simp only [cellsRead, ih hw]
        by_cases hx : a' = x
        · subst hx
          rw [if_pos rfl, if_neg (by omega), if_pos rfl]
        · simp [hx]

/-! ## Single writes -/

@[simp] theorem Flash.write_epoch (m : Flash) (a : Nat) (b : Byte) : (m.write a b).epoch = m.epoch := rfl

theorem Flash.write_wf {m : Flash} (a : Nat) (b : Byte) (h : m.wf = true) : (m.write a b).wf = true :=
  cellsWrite_wf _ _ _ _ h

theorem Flash.read_write {m : Flash} (h : m.wf = true) (a a' : Nat) (b : Byte) :
    (m.write a b).read a' = if a' = a then b else m.read a' :=
  cellsRead_write _ _ _ _ _ h

theorem Flash.memWrite_wf {m : Flash} (model : ProgramModel) (n a : Nat) (v : Byte) (h : m.wf = true) :
    (m.memWrite model n a v).wf = true :=
  Flash.write_wf _ _ h

theorem Flash.read_memWrite {m : Flash} (h : m.wf = true) (model : ProgramModel) (n a a' : Nat) (v : Byte) :
    (m.memWrite model n a v).read a' =
      if a' = a then programmedByte model (m.read a) v (Config.arrayDraw n a) else m.read a' :=
  Flash.read_write h _ _ _

/-! ## Folds of writes -/

theorem flashFold_wf {f : Nat → Flash → Flash} (hf : ∀ k m, m.wf = true → (f k m).wf = true) (n : Nat) {m : Flash}
    (h : m.wf = true) : (flashFold n f m).wf = true := by
  induction n with
  | zero => exact h
  | succ n ih => exact hf n _ ih

/-- A fold whose writes do not reach an address leaves the byte there. -/
theorem flashFold_read_other {f : Nat → Flash → Flash} (hf : ∀ k m, m.wf = true → (f k m).wf = true) {a : Nat}
    (n : Nat) (ha : ∀ k m, k < n → m.wf = true → (f k m).read a = m.read a) {m : Flash} (h : m.wf = true) :
    (flashFold n f m).read a = m.read a := by
  induction n with
  | zero => rfl
  | succ n ih =>
    rw [flashFold, ha n _ (Nat.lt_succ_self n) (flashFold_wf hf n h)]
    exact ih fun k m hk => ha k m (Nat.lt_succ_of_lt hk)

/-- A fold reaches an address at exactly one index: the byte there is what that write makes of the byte before. -/
theorem flashFold_read_at {f : Nat → Flash → Flash} (hf : ∀ k m, m.wf = true → (f k m).wf = true) {a i : Nat}
    {g : Byte → Byte} (n : Nat) (hi : i < n)
    (hhit : ∀ m, m.wf = true → (f i m).read a = g (m.read a))
    (hmiss : ∀ k m, k < n → k ≠ i → m.wf = true → (f k m).read a = m.read a) {m : Flash} (h : m.wf = true) :
    (flashFold n f m).read a = g (m.read a) := by
  induction n with
  | zero => omega
  | succ n ih =>
    rw [flashFold]
    by_cases hn : n = i
    · subst hn
      rw [hhit _ (flashFold_wf hf n h)]
      exact congrArg g
        (flashFold_read_other hf n (fun k m hk => hmiss k m (by omega) (by omega)) h)
    · rw [hmiss n _ (Nat.lt_succ_self n) hn (flashFold_wf hf n h)]
      exact ih (by omega) fun k m hk => hmiss k m (by omega)

/-! ## Program, erase, havoc -/

theorem Flash.programPage_wf {m : Flash} (model : ProgramModel) (n a : Nat) (d : List Byte) (h : m.wf = true) :
    (m.programPage model n a d).wf = true :=
  flashFold_wf (fun _ _ hm => Flash.memWrite_wf _ _ _ _ hm) _ h

theorem Flash.eraseSector_wf {m : Flash} (cap sec : Nat) (h : m.wf = true) : (m.eraseSector cap sec).wf = true := by
  refine flashFold_wf (fun k m hm => ?_) _ h
  split
  · exact Flash.write_wf _ _ hm
  · exact hm

theorem Flash.havoc_wf {m : Flash} (cap n : Nat) (r : Region) (h : m.wf = true) : (m.havoc cap n r).wf = true := by
  cases r with
  | whole => rfl
  | span lo len =>
    refine flashFold_wf (fun k m hm => ?_) _ h
    split
    · exact Flash.write_wf _ _ hm
    · exact hm

theorem programTarget_lt (a k : Nat) : programTarget a k < pageBase a + 256 := by
  have := Nat.mod_lt (a % Config.pageSize + k) (show 0 < Config.pageSize by decide)
  simp only [programTarget, Config.pageSize] at *
  omega

theorem pageBase_le_programTarget (a k : Nat) : pageBase a ≤ programTarget a k := Nat.le_add_right _ _

/-- Different data bytes go to different addresses. -/
theorem programTarget_inj {a j k : Nat} (hj : j < 256) (hk : k < 256) (h : programTarget a j = programTarget a k) :
    j = k := by
  simp only [programTarget, Config.pageSize] at h
  omega

/-- For an aligned address the k-th byte goes to A + k (R71). -/
theorem programTarget_aligned {a k : Nat} (ha : a % 256 = 0) (hk : k < 256) : programTarget a k = a + k := by
  simp only [programTarget, pageBase, Config.pageSize]
  omega

theorem Flash.read_programPage_other {m : Flash} (h : m.wf = true) (model : ProgramModel) (n a : Nat) (d : List Byte)
    (x : Nat) (hx : x < pageBase a ∨ pageBase a + 256 ≤ x) : (m.programPage model n a d).read x = m.read x := by
  refine flashFold_read_other (fun _ _ hm => Flash.memWrite_wf _ _ _ _ hm) _ (fun k m _ hm => ?_) h
  rw [Flash.read_memWrite hm, if_neg]
  have := programTarget_lt a k
  have := pageBase_le_programTarget a k
  omega

theorem Flash.read_programPage_at {m : Flash} (h : m.wf = true) (model : ProgramModel) (n a : Nat) (d : List Byte)
    (k : Nat) (hk : k < 256) :
    (m.programPage model n a d).read (programTarget a k) =
      programmedByte model (m.read (programTarget a k)) (d.getD k 0) (Config.arrayDraw n (programTarget a k)) := by
  refine flashFold_read_at
    (f := fun k => Flash.memWrite model n (programTarget a k) (d.getD k 0))
    (g := fun b => programmedByte model b (d.getD k 0) (Config.arrayDraw n (programTarget a k)))
    (fun _ _ hm => Flash.memWrite_wf _ _ _ _ hm) (i := k) _ hk (fun m hm => ?_) (fun j m hj hjk hm => ?_) h
  · rw [Flash.read_memWrite hm, if_pos rfl]
  · rw [Flash.read_memWrite hm, if_neg]
    exact fun he => hjk (programTarget_inj hj hk he.symm)

theorem Flash.read_eraseSector {m : Flash} (h : m.wf = true) (cap sec x : Nat) :
    (m.eraseSector cap sec).read x =
      if sec * 4096 ≤ x ∧ x < sec * 4096 + 4096 ∧ x < cap then 0xFF#8 else m.read x := by
  have hwf : ∀ k (m : Flash), m.wf = true →
      (if sec * Config.sectorSize + k < cap then m.write (sec * Config.sectorSize + k) 0xFF#8 else m).wf = true := by
    intro k m hm
    split
    · exact Flash.write_wf _ _ hm
    · exact hm
  split
  · rename_i hx
    refine flashFold_read_at (g := fun _ => 0xFF#8) hwf (i := x - sec * 4096) _ (by simp [Config.sectorSize]; omega)
      (fun m hm => ?_) (fun j m hj hne hm => ?_) h
    · rw [if_pos (by simp [Config.sectorSize]; omega), Flash.read_write hm, if_pos (by simp [Config.sectorSize]; omega)]
    · split
      · rw [Flash.read_write hm, if_neg (by simp [Config.sectorSize] at *; omega)]
      · rfl
  · rename_i hx
    refine flashFold_read_other hwf _ (fun k m hk hm => ?_) h
    split
    · rw [Flash.read_write hm, if_neg (by simp [Config.sectorSize] at *; omega)]
    · rfl

/-- After a havoc of the whole array every byte is one of the new drawing (R58). -/
theorem Flash.read_havoc_whole (m : Flash) (cap n x : Nat) : (m.havoc cap n .whole).read x = Config.arrayDraw n x := rfl

/-- After a havoc of a span its bytes below the capacity are of the new drawing, and all others as before (R58). -/
theorem Flash.read_havoc_span {m : Flash} (h : m.wf = true) (cap n lo len x : Nat) :
    (m.havoc cap n (.span lo len)).read x =
      if lo ≤ x ∧ x < lo + len ∧ x < cap then Config.arrayDraw n x else m.read x := by
  have hwf : ∀ k (m : Flash), m.wf = true →
      (if lo + k < cap then m.write (lo + k) (Config.arrayDraw n (lo + k)) else m).wf = true := by
    intro k m hm
    split
    · exact Flash.write_wf _ _ hm
    · exact hm
  split
  · rename_i hx
    refine flashFold_read_at (g := fun _ => Config.arrayDraw n x) hwf (i := x - lo) _ (by omega)
      (fun m hm => ?_) (fun j m hj hne hm => ?_) h
    · rw [if_pos (by omega), Flash.read_write hm, if_pos (by omega), show lo + (x - lo) = x by omega]
    · split
      · rw [Flash.read_write hm, if_neg (by omega)]
      · rfl
  · rename_i hx
    refine flashFold_read_other hwf _ (fun k m hk hm => ?_) h
    split
    · rw [Flash.read_write hm, if_neg (by omega)]
    · rfl

/-- A havoc leaves every byte outside its region alone. -/
theorem Flash.read_havoc_span_other {m : Flash} (h : m.wf = true) (cap n lo len x : Nat)
    (hx : x < lo ∨ lo + len ≤ x ∨ cap ≤ x) : (m.havoc cap n (.span lo len)).read x = m.read x := by
  rw [Flash.read_havoc_span h, if_neg (by omega)]

end Sys2Proof.Machine
end

