-- ==== Sys2Proof/Laws/Device.lean ====
section
/-! SUPPORT. Laws of the reference device: what each command does at deselect, what it answers, when the completion step
fires, and that nothing changes its constants or spoils the canonical form of the array. -/

namespace Sys2Proof.Machine

/-! ## Effects at deselect -/

@[simp] theorem Device.act_encSr1 (d : Device) (n : Nat) : d.act n encSr1 = d := rfl
@[simp] theorem Device.act_encSr2 (d : Device) (n : Nat) : d.act n encSr2 = d := rfl
@[simp] theorem Device.act_encSr3 (d : Device) (n : Nat) : d.act n encSr3 = d := rfl
@[simp] theorem Device.act_encId (d : Device) (n : Nat) : d.act n encId = d := rfl
@[simp] theorem Device.act_encRead (d : Device) (n : Nat) (a : BitVec 32) (len : Nat) :
    d.act n (encRead a len) = d := rfl
@[simp] theorem Device.act_encWren (d : Device) (n : Nat) :
    d.act n encWren = if d.busy then d else { d with wel := true } := rfl
@[simp] theorem Device.act_encEnter4b (d : Device) (n : Nat) :
    d.act n encEnter4b = if d.busy then d else { d with ads := true } := rfl

theorem Device.act_encProg (d : Device) (n : Nat) (a : BitVec 32) (data : List Byte) (h : data.length = 256) :
    d.act n (encProg a data) = d.accept n (d.programPending a data) := by
  simp [Device.act, h]

@[simp] theorem Device.act_encErase (d : Device) (n : Nat) (a : BitVec 32) :
    d.act n (encErase a) = d.accept n (d.erasePending a) := by
  simp [Device.act]

/-- No command changes the array at its acceptance (R67, R68): it changes at completion. -/
@[simp] theorem Device.act_array (d : Device) (n : Nat) (tx : List Byte) : (d.act n tx).array = d.array := by
  simp only [Device.act, Device.accept]
  split <;> (try split) <;> (try split) <;> rfl

/-! ## Answers -/

@[simp] theorem Device.answer_length (d : Device) (n : Nat) (tx : List Byte) :
    (d.answer n tx).length = tx.length := by
  simp [Device.answer]

theorem Device.answer_getD (d : Device) (n : Nat) (tx : List Byte) (i : Nat) (h : i < tx.length) :
    (d.answer n tx).getD i 0 = d.misoByte n tx i := by
  simp [Device.answer, List.getD_eq_getElem?_getD, h]

@[simp] theorem misoUsed_encSr1 (d : Device) (n : Nat) :
    misoUsed encSr1 (d.answer n encSr1) = [d.sr1 (drawBit (n + 1))] := rfl
@[simp] theorem misoUsed_encSr2 (d : Device) (n : Nat) : misoUsed encSr2 (d.answer n encSr2) = [d.sr2] := rfl
@[simp] theorem misoUsed_encSr3 (d : Device) (n : Nat) : misoUsed encSr3 (d.answer n encSr3) = [d.sr3] := rfl

theorem misoUsed_encId (d : Device) (n : Nat) (h : d.busy = false) : misoUsed encId (d.answer n encId) = [d.id] := by
  simp only [misoUsed, frameOp_encId, d.answer_getD n encId 4 (by decide)]
  simp [Device.misoByte, h]

theorem Device.addrModeOk_iff (d : Device) : d.addrModeOk = true ↔ d.Usable := by
  simp [Device.addrModeOk, Device.Usable]

/-- Byte 5 + k of a read of an idle device: in a usable address mode MemRead(A + k), in any other a draw (R55, R66,
R74). -/
theorem Device.answer_encRead_data (d : Device) (n : Nat) (a : BitVec 32) (len k : Nat) (hb : d.busy = false)
    (hk : k < len) :
    (d.answer n (encRead a len)).getD (5 + k) 0 =
      if d.addrModeOk then d.memRead (a.toNat + k) (Config.draw (n + (5 + k))) else Config.draw (n + (5 + k)) := by
  rw [d.answer_getD n _ _ (by simp; omega)]
  simp [Device.misoByte, hb]

/-- The opcode and address bytes of a read are answered with draws (R75). -/
theorem Device.answer_encRead_head (d : Device) (n : Nat) (a : BitVec 32) (len k : Nat) (hk : k < 5) :
    (d.answer n (encRead a len)).getD k 0 = Config.draw (n + k) := by
  rw [d.answer_getD n _ _ (by simp; omega)]
  simp [Device.misoByte, show ¬ 5 ≤ k by omega]

/-- The data of a read of an idle device. -/
theorem misoUsed_encRead (d : Device) (n : Nat) (a : BitVec 32) (len : Nat) (hb : d.busy = false) :
    misoUsed (encRead a len) (d.answer n (encRead a len)) =
      (List.range len).map (fun k =>
        if d.addrModeOk then d.memRead (a.toNat + k) (Config.draw (n + (5 + k))) else Config.draw (n + (5 + k))) := by
  simp only [misoUsed, frameOp_encRead]
  apply List.ext_getElem
  · simp
  · intro i h1 h2
    simp at h2
    simp [Device.answer, Device.misoByte, hb]

/-! ## The status bits as the block decodes them -/

@[simp] theorem busyBit_sr1Byte (o : BitVec 6) (w b : Bool) : busyBit (sr1Byte o w b) = b := by
  simp only [busyBit, sr1Byte, BitVec.getLsbD_append, BitVec.getLsbD_ofBool]; simp

@[simp] theorem welBit_sr1Byte (o : BitVec 6) (w b : Bool) : welBit (sr1Byte o w b) = w := by
  simp only [welBit, sr1Byte, BitVec.getLsbD_append, BitVec.getLsbD_ofBool]; simp

@[simp] theorem adsBit_sr3Byte (o : BitVec 7) (a : Bool) : adsBit (sr3Byte o a) = a := by
  simp only [adsBit, sr3Byte, BitVec.getLsbD_append, BitVec.getLsbD_ofBool]; simp

@[simp] theorem busyBit_sr1 (d : Device) (w : Bool) : busyBit (d.sr1 w) = d.busy := busyBit_sr1Byte _ _ _

theorem welBit_sr1 (d : Device) (w : Bool) (h : d.busy = false) : welBit (d.sr1 w) = d.wel := by
  simp [Device.sr1, h]

@[simp] theorem adsBit_sr3 (d : Device) : adsBit d.sr3 = d.ads := adsBit_sr3Byte _ _

/-! ## The completion step -/

theorem Device.elapse_idle (d : Device) (n : Nat) (h : d.busy = false) : d.elapse n = d := by
  simp [Device.elapse, h]

theorem Device.elapse_busy (d : Device) (n k : Nat) (h : d.busy = true) (hk : d.busyLeft = k + 1) :
    d.elapse n = { d with busyLeft := k } := by
  simp [Device.elapse, h, hk]

theorem Device.elapse_done (d : Device) (n : Nat) (h : d.busy = true) (hk : d.busyLeft = 0) :
    d.elapse n = d.complete n := by
  simp [Device.elapse, h, hk]

/-- Everything a gap can do: nothing to an idle device, one gap fewer, or the completion step (R70). -/
theorem Device.elapse_cases (d : Device) (n : Nat) :
    (d.busy = false ∧ d.elapse n = d) ∨
    (d.busy = true ∧ ∃ k, d.busyLeft = k + 1 ∧ d.elapse n = { d with busyLeft := k }) ∨
    (d.busy = true ∧ d.busyLeft = 0 ∧ d.elapse n = d.complete n) := by
  rcases Bool.eq_false_or_eq_true d.busy with hb | hb
  · rcases Nat.eq_zero_or_eq_succ_pred d.busyLeft with hl | hl
    · exact .inr (.inr ⟨hb, hl, d.elapse_done n hb hl⟩)
    · exact .inr (.inl ⟨hb, _, hl, d.elapse_busy n _ hb hl⟩)
  · exact .inl ⟨hb, d.elapse_idle n hb⟩

/-! ## What stays -/

theorem SameDevice.refl (d : Device) : SameDevice d d := ⟨rfl, rfl, rfl, rfl, rfl, rfl, rfl, rfl, rfl⟩

theorem SameDevice.trans {d e f : Device} (h : SameDevice d e) (g : SameDevice e f) : SameDevice d f := by
  exact ⟨g.1.trans h.1, g.2.trans h.2, g.3.trans h.3, g.4.trans h.4, g.5.trans h.5, g.6.trans h.6, g.7.trans h.7,
    g.8.trans h.8, g.9.trans h.9⟩

theorem Device.act_same (d : Device) (n : Nat) (tx : List Byte) : SameDevice d (d.act n tx) := by
  simp only [Device.act, Device.accept]
  split <;> (try split) <;> (try split) <;> exact ⟨rfl, rfl, rfl, rfl, rfl, rfl, rfl, rfl, rfl⟩

theorem Device.elapse_same (d : Device) (n : Nat) : SameDevice d (d.elapse n) := by
  rcases d.elapse_cases n with ⟨-, h⟩ | ⟨-, k, -, h⟩ | ⟨-, -, h⟩ <;> rw [h] <;>
    exact ⟨rfl, rfl, rfl, rfl, rfl, rfl, rfl, rfl, rfl⟩

theorem Device.truncate_same (d : Device) (n : Nat) (tx : List Byte) : SameDevice d (d.truncate n tx) := by
  simp only [Device.truncate, Device.scramble]
  split <;> exact ⟨rfl, rfl, rfl, rfl, rfl, rfl, rfl, rfl, rfl⟩

@[simp] theorem Device.truncate_array (d : Device) (n : Nat) (tx : List Byte) :
    (d.truncate n tx).array = d.array := by
  simp only [Device.truncate, Device.scramble]
  split <;> rfl

theorem Device.applyPending_wf (d : Device) (n : Nat) (h : d.array.wf = true) : (d.applyPending n).wf = true := by
  simp only [Device.applyPending]
  split
  · exact h
  · exact Flash.programPage_wf _ _ _ _ h
  · exact Flash.eraseSector_wf _ _ h
  · exact Flash.havoc_wf _ _ _ h

/-- A gap keeps the canonical form of the array. -/
theorem Device.elapse_wf (d : Device) (n : Nat) (h : d.array.wf = true) : (d.elapse n).array.wf = true := by
  rcases d.elapse_cases n with ⟨-, e⟩ | ⟨-, k, -, e⟩ | ⟨-, -, e⟩ <;> rw [e]
  · exact h
  · exact h
  · exact d.applyPending_wf n h

end Sys2Proof.Machine
end

