-- ==== Sys2Proof/Laws/State.lean ====
section
/-! SUPPORT. For every named operation over the state, one lemma a field: what the operation makes of it. No later
proof unfolds a record update. -/

namespace Sys2Proof.Machine

/-! ## State.elapse -/

@[simp] theorem State.elapse_seqState (s : State) : (s.elapse).seqState = s.seqState := rfl
@[simp] theorem State.elapse_req (s : State) : (s.elapse).req = s.req := rfl
@[simp] theorem State.elapse_wdata (s : State) : (s.elapse).wdata = s.wdata := rfl
@[simp] theorem State.elapse_answers (s : State) : (s.elapse).answers = s.answers := rfl
@[simp] theorem State.elapse_loopS (s : State) : (s.elapse).loopS = s.loopS := rfl
@[simp] theorem State.elapse_loopLast (s : State) : (s.elapse).loopLast = s.loopLast := rfl
@[simp] theorem State.elapse_rdata (s : State) : (s.elapse).rdata = s.rdata := rfl
@[simp] theorem State.elapse_resp (s : State) : (s.elapse).resp = s.resp := rfl
@[simp] theorem State.elapse_respValid (s : State) : (s.elapse).respValid = s.respValid := rfl
@[simp] theorem State.elapse_csN (s : State) : (s.elapse).csN = s.csN := rfl
@[simp] theorem State.elapse_sck (s : State) : (s.elapse).sck = s.sck := rfl
@[simp] theorem State.elapse_mosi (s : State) : (s.elapse).mosi = s.mosi := rfl
@[simp] theorem State.elapse_result (s : State) : (s.elapse).result = s.result := rfl
@[simp] theorem State.elapse_sckHz (s : State) : (s.elapse).sckHz = s.sckHz := rfl
@[simp] theorem State.elapse_csId (s : State) : (s.elapse).csId = s.csId := rfl
@[simp] theorem State.elapse_env (s : State) : (s.elapse).env = s.env := rfl
@[simp] theorem State.elapse_misoIn (s : State) : (s.elapse).misoIn = s.misoIn := rfl
@[simp] theorem State.elapse_host (s : State) : (s.elapse).host = s.host := rfl
@[simp] theorem State.elapse_rstIn (s : State) : (s.elapse).rstIn = s.rstIn := rfl
@[simp] theorem State.elapse_rstHeld (s : State) : (s.elapse).rstHeld = s.rstHeld := rfl
@[simp] theorem State.elapse_draws (s : State) : (s.elapse).draws = s.draws + 1 := rfl
@[simp] theorem State.elapse_trace (s : State) : (s.elapse).trace = s.trace := rfl

/-! ## State.select -/

@[simp] theorem State.select_seqState (s : State) : (s.select).seqState = s.seqState := rfl
@[simp] theorem State.select_req (s : State) : (s.select).req = s.req := rfl
@[simp] theorem State.select_wdata (s : State) : (s.select).wdata = s.wdata := rfl
@[simp] theorem State.select_answers (s : State) : (s.select).answers = s.answers := rfl
@[simp] theorem State.select_loopS (s : State) : (s.select).loopS = s.loopS := rfl
@[simp] theorem State.select_loopLast (s : State) : (s.select).loopLast = s.loopLast := rfl
@[simp] theorem State.select_rdata (s : State) : (s.select).rdata = s.rdata := rfl
@[simp] theorem State.select_resp (s : State) : (s.select).resp = s.resp := rfl
@[simp] theorem State.select_respValid (s : State) : (s.select).respValid = s.respValid := rfl
@[simp] theorem State.select_csN (s : State) : (s.select).csN = false := rfl
@[simp] theorem State.select_sck (s : State) : (s.select).sck = s.sck := rfl
@[simp] theorem State.select_mosi (s : State) : (s.select).mosi = s.mosi := rfl
@[simp] theorem State.select_result (s : State) : (s.select).result = s.result := rfl
@[simp] theorem State.select_sckHz (s : State) : (s.select).sckHz = s.sckHz := rfl
@[simp] theorem State.select_csId (s : State) : (s.select).csId = s.csId := rfl
@[simp] theorem State.select_dev (s : State) : (s.select).dev = s.dev := rfl
@[simp] theorem State.select_env (s : State) : (s.select).env = s.env := rfl
@[simp] theorem State.select_misoIn (s : State) : (s.select).misoIn = s.misoIn := rfl
@[simp] theorem State.select_host (s : State) : (s.select).host = s.host := rfl
@[simp] theorem State.select_rstIn (s : State) : (s.select).rstIn = s.rstIn := rfl
@[simp] theorem State.select_rstHeld (s : State) : (s.select).rstHeld = s.rstHeld := rfl
@[simp] theorem State.select_draws (s : State) : (s.select).draws = s.draws := rfl
@[simp] theorem State.select_trace (s : State) : (s.select).trace = s.trace := rfl

/-! ## State.exchange -/

@[simp] theorem State.exchange_seqState (tx : List Byte) (s : State) : (s.exchange tx).seqState = s.seqState := rfl
@[simp] theorem State.exchange_req (tx : List Byte) (s : State) : (s.exchange tx).req = s.req := rfl
@[simp] theorem State.exchange_wdata (tx : List Byte) (s : State) : (s.exchange tx).wdata = s.wdata := rfl
@[simp] theorem State.exchange_answers (tx : List Byte) (s : State) : (s.exchange tx).answers = s.answers := rfl
@[simp] theorem State.exchange_loopS (tx : List Byte) (s : State) : (s.exchange tx).loopS = s.loopS := rfl
@[simp] theorem State.exchange_loopLast (tx : List Byte) (s : State) : (s.exchange tx).loopLast = s.loopLast := rfl
@[simp] theorem State.exchange_rdata (tx : List Byte) (s : State) : (s.exchange tx).rdata = s.rdata := rfl
@[simp] theorem State.exchange_resp (tx : List Byte) (s : State) : (s.exchange tx).resp = s.resp := rfl
@[simp] theorem State.exchange_respValid (tx : List Byte) (s : State) : (s.exchange tx).respValid = s.respValid := rfl
@[simp] theorem State.exchange_csN (tx : List Byte) (s : State) : (s.exchange tx).csN = s.csN := rfl
@[simp] theorem State.exchange_sck (tx : List Byte) (s : State) : (s.exchange tx).sck = s.sck := rfl
@[simp] theorem State.exchange_mosi (tx : List Byte) (s : State) : (s.exchange tx).mosi = s.mosi := rfl
@[simp] theorem State.exchange_result (tx : List Byte) (s : State) :
    (s.exchange tx).result = misoUsed tx (s.answer tx) := rfl
@[simp] theorem State.exchange_sckHz (tx : List Byte) (s : State) : (s.exchange tx).sckHz = s.sckHz := rfl
@[simp] theorem State.exchange_csId (tx : List Byte) (s : State) : (s.exchange tx).csId = s.csId := rfl
@[simp] theorem State.exchange_dev (tx : List Byte) (s : State) : (s.exchange tx).dev = s.dev := rfl
@[simp] theorem State.exchange_env (tx : List Byte) (s : State) : (s.exchange tx).env = s.env := rfl
@[simp] theorem State.exchange_host (tx : List Byte) (s : State) : (s.exchange tx).host = s.host := rfl
@[simp] theorem State.exchange_rstIn (tx : List Byte) (s : State) : (s.exchange tx).rstIn = s.rstIn := rfl
@[simp] theorem State.exchange_rstHeld (tx : List Byte) (s : State) : (s.exchange tx).rstHeld = s.rstHeld := rfl
@[simp] theorem State.exchange_draws (tx : List Byte) (s : State) : (s.exchange tx).draws = s.draws + tx.length := rfl
@[simp] theorem State.exchange_trace (tx : List Byte) (s : State) :
    (s.exchange tx).trace = { tx := tx, rx := s.answer tx, cut := none } :: s.trace := rfl

/-! ## State.deselect -/

@[simp] theorem State.deselect_seqState (tx : List Byte) (s : State) : (s.deselect tx).seqState = s.seqState := rfl
@[simp] theorem State.deselect_req (tx : List Byte) (s : State) : (s.deselect tx).req = s.req := rfl
@[simp] theorem State.deselect_wdata (tx : List Byte) (s : State) : (s.deselect tx).wdata = s.wdata := rfl
@[simp] theorem State.deselect_answers (tx : List Byte) (s : State) : (s.deselect tx).answers = s.answers := rfl
@[simp] theorem State.deselect_loopS (tx : List Byte) (s : State) : (s.deselect tx).loopS = s.loopS := rfl
@[simp] theorem State.deselect_loopLast (tx : List Byte) (s : State) : (s.deselect tx).loopLast = s.loopLast := rfl
@[simp] theorem State.deselect_rdata (tx : List Byte) (s : State) : (s.deselect tx).rdata = s.rdata := rfl
@[simp] theorem State.deselect_resp (tx : List Byte) (s : State) : (s.deselect tx).resp = s.resp := rfl
@[simp] theorem State.deselect_respValid (tx : List Byte) (s : State) : (s.deselect tx).respValid = s.respValid := rfl
@[simp] theorem State.deselect_csN (tx : List Byte) (s : State) : (s.deselect tx).csN = true := rfl
@[simp] theorem State.deselect_sck (tx : List Byte) (s : State) : (s.deselect tx).sck = false := rfl
@[simp] theorem State.deselect_mosi (tx : List Byte) (s : State) : (s.deselect tx).mosi = drawBit s.draws := rfl
@[simp] theorem State.deselect_result (tx : List Byte) (s : State) : (s.deselect tx).result = s.result := rfl
@[simp] theorem State.deselect_sckHz (tx : List Byte) (s : State) : (s.deselect tx).sckHz = s.sckHz := rfl
@[simp] theorem State.deselect_csId (tx : List Byte) (s : State) : (s.deselect tx).csId = s.csId := rfl
@[simp] theorem State.deselect_env (tx : List Byte) (s : State) : (s.deselect tx).env = s.env := rfl
@[simp] theorem State.deselect_misoIn (tx : List Byte) (s : State) : (s.deselect tx).misoIn = s.misoIn := rfl
@[simp] theorem State.deselect_host (tx : List Byte) (s : State) : (s.deselect tx).host = s.host := rfl
@[simp] theorem State.deselect_rstIn (tx : List Byte) (s : State) : (s.deselect tx).rstIn = s.rstIn := rfl
@[simp] theorem State.deselect_rstHeld (tx : List Byte) (s : State) : (s.deselect tx).rstHeld = s.rstHeld := rfl
@[simp] theorem State.deselect_draws (tx : List Byte) (s : State) : (s.deselect tx).draws = s.draws + 1 := rfl
@[simp] theorem State.deselect_trace (tx : List Byte) (s : State) : (s.deselect tx).trace = s.trace := rfl

/-! ## State.xfer -/

@[simp] theorem State.xfer_seqState (tx : List Byte) (s : State) : (s.xfer tx).seqState = s.seqState := rfl
@[simp] theorem State.xfer_req (tx : List Byte) (s : State) : (s.xfer tx).req = s.req := rfl
@[simp] theorem State.xfer_wdata (tx : List Byte) (s : State) : (s.xfer tx).wdata = s.wdata := rfl
@[simp] theorem State.xfer_answers (tx : List Byte) (s : State) : (s.xfer tx).answers = s.answers := rfl
@[simp] theorem State.xfer_loopS (tx : List Byte) (s : State) : (s.xfer tx).loopS = s.loopS := rfl
@[simp] theorem State.xfer_loopLast (tx : List Byte) (s : State) : (s.xfer tx).loopLast = s.loopLast := rfl
@[simp] theorem State.xfer_rdata (tx : List Byte) (s : State) : (s.xfer tx).rdata = s.rdata := rfl
@[simp] theorem State.xfer_resp (tx : List Byte) (s : State) : (s.xfer tx).resp = s.resp := rfl
@[simp] theorem State.xfer_respValid (tx : List Byte) (s : State) : (s.xfer tx).respValid = s.respValid := rfl
@[simp] theorem State.xfer_csN (tx : List Byte) (s : State) : (s.xfer tx).csN = true := rfl
@[simp] theorem State.xfer_sck (tx : List Byte) (s : State) : (s.xfer tx).sck = false := rfl
@[simp] theorem State.xfer_result (tx : List Byte) (s : State) :
    (s.xfer tx).result = misoUsed tx (s.elapse.answer tx) := rfl
@[simp] theorem State.xfer_sckHz (tx : List Byte) (s : State) : (s.xfer tx).sckHz = s.sckHz := rfl
@[simp] theorem State.xfer_csId (tx : List Byte) (s : State) : (s.xfer tx).csId = s.csId := rfl
@[simp] theorem State.xfer_env (tx : List Byte) (s : State) : (s.xfer tx).env = s.env := rfl
@[simp] theorem State.xfer_host (tx : List Byte) (s : State) : (s.xfer tx).host = s.host := rfl
@[simp] theorem State.xfer_rstIn (tx : List Byte) (s : State) : (s.xfer tx).rstIn = s.rstIn := rfl
@[simp] theorem State.xfer_rstHeld (tx : List Byte) (s : State) : (s.xfer tx).rstHeld = s.rstHeld := rfl
@[simp] theorem State.xfer_draws (tx : List Byte) (s : State) : (s.xfer tx).draws = s.draws + 1 + tx.length + 1 := rfl
@[simp] theorem State.xfer_trace (tx : List Byte) (s : State) :
    (s.xfer tx).trace = { tx := tx, rx := s.elapse.answer tx, cut := none } :: s.trace := rfl

/-! ## State.blockReset -/

@[simp] theorem State.blockReset_seqState (s : State) : (s.blockReset).seqState = .idle := rfl
@[simp] theorem State.blockReset_req (s : State) : (s.blockReset).req = s.req := rfl
@[simp] theorem State.blockReset_wdata (s : State) : (s.blockReset).wdata = s.wdata := rfl
@[simp] theorem State.blockReset_answers (s : State) : (s.blockReset).answers = [] := rfl
@[simp] theorem State.blockReset_loopS (s : State) : (s.blockReset).loopS = s.loopS := rfl
@[simp] theorem State.blockReset_loopLast (s : State) : (s.blockReset).loopLast = s.loopLast := rfl
@[simp] theorem State.blockReset_rdata (s : State) : (s.blockReset).rdata = [] := rfl
@[simp] theorem State.blockReset_resp (s : State) : (s.blockReset).resp = s.resp := rfl
@[simp] theorem State.blockReset_respValid (s : State) : (s.blockReset).respValid = false := rfl
@[simp] theorem State.blockReset_csN (s : State) : (s.blockReset).csN = true := rfl
@[simp] theorem State.blockReset_sck (s : State) : (s.blockReset).sck = false := rfl
@[simp] theorem State.blockReset_mosi (s : State) : (s.blockReset).mosi = drawBit s.draws := rfl
@[simp] theorem State.blockReset_result (s : State) : (s.blockReset).result = [] := rfl
@[simp] theorem State.blockReset_sckHz (s : State) : (s.blockReset).sckHz = s.sckHz := rfl
@[simp] theorem State.blockReset_csId (s : State) : (s.blockReset).csId = s.csId := rfl
@[simp] theorem State.blockReset_dev (s : State) : (s.blockReset).dev = s.dev := rfl
@[simp] theorem State.blockReset_env (s : State) : (s.blockReset).env = s.env := rfl
@[simp] theorem State.blockReset_misoIn (s : State) : (s.blockReset).misoIn = s.misoIn := rfl
@[simp] theorem State.blockReset_host (s : State) : (s.blockReset).host = s.host := rfl
@[simp] theorem State.blockReset_rstIn (s : State) : (s.blockReset).rstIn = s.rstIn := rfl
@[simp] theorem State.blockReset_rstHeld (s : State) : (s.blockReset).rstHeld = s.rstHeld := rfl
@[simp] theorem State.blockReset_draws (s : State) : (s.blockReset).draws = s.draws + 1 := rfl
@[simp] theorem State.blockReset_trace (s : State) : (s.blockReset).trace = s.trace := rfl

/-! ## State.assertRst -/

@[simp] theorem State.assertRst_seqState (hold : Nat) (s : State) : (s.assertRst hold).seqState = .idle := rfl
@[simp] theorem State.assertRst_req (hold : Nat) (s : State) : (s.assertRst hold).req = s.req := rfl
@[simp] theorem State.assertRst_wdata (hold : Nat) (s : State) : (s.assertRst hold).wdata = s.wdata := rfl
@[simp] theorem State.assertRst_answers (hold : Nat) (s : State) : (s.assertRst hold).answers = [] := rfl
@[simp] theorem State.assertRst_loopS (hold : Nat) (s : State) : (s.assertRst hold).loopS = s.loopS := rfl
@[simp] theorem State.assertRst_loopLast (hold : Nat) (s : State) : (s.assertRst hold).loopLast = s.loopLast := rfl
@[simp] theorem State.assertRst_rdata (hold : Nat) (s : State) : (s.assertRst hold).rdata = [] := rfl
@[simp] theorem State.assertRst_resp (hold : Nat) (s : State) : (s.assertRst hold).resp = s.resp := rfl
@[simp] theorem State.assertRst_respValid (hold : Nat) (s : State) : (s.assertRst hold).respValid = false := rfl
@[simp] theorem State.assertRst_csN (hold : Nat) (s : State) : (s.assertRst hold).csN = true := rfl
@[simp] theorem State.assertRst_sck (hold : Nat) (s : State) : (s.assertRst hold).sck = false := rfl
@[simp] theorem State.assertRst_mosi (hold : Nat) (s : State) : (s.assertRst hold).mosi = drawBit s.draws := rfl
@[simp] theorem State.assertRst_result (hold : Nat) (s : State) : (s.assertRst hold).result = [] := rfl
@[simp] theorem State.assertRst_sckHz (hold : Nat) (s : State) : (s.assertRst hold).sckHz = s.sckHz := rfl
@[simp] theorem State.assertRst_csId (hold : Nat) (s : State) : (s.assertRst hold).csId = s.csId := rfl
@[simp] theorem State.assertRst_dev (hold : Nat) (s : State) : (s.assertRst hold).dev = s.dev := rfl
@[simp] theorem State.assertRst_env (hold : Nat) (s : State) : (s.assertRst hold).env = s.env := rfl
@[simp] theorem State.assertRst_misoIn (hold : Nat) (s : State) : (s.assertRst hold).misoIn = s.misoIn := rfl
@[simp] theorem State.assertRst_host (hold : Nat) (s : State) : (s.assertRst hold).host = s.host := rfl
@[simp] theorem State.assertRst_rstIn (hold : Nat) (s : State) : (s.assertRst hold).rstIn = none := rfl
@[simp] theorem State.assertRst_rstHeld (hold : Nat) (s : State) : (s.assertRst hold).rstHeld = hold := rfl
@[simp] theorem State.assertRst_draws (hold : Nat) (s : State) : (s.assertRst hold).draws = s.draws + 1 := rfl
@[simp] theorem State.assertRst_trace (hold : Nat) (s : State) : (s.assertRst hold).trace = s.trace := rfl

/-! ## State.truncate -/

@[simp] theorem State.truncate_seqState (tx : List Byte) (bits : Nat) (s : State) :
    (s.truncate tx bits).seqState = s.seqState := rfl
@[simp] theorem State.truncate_req (tx : List Byte) (bits : Nat) (s : State) : (s.truncate tx bits).req = s.req := rfl
@[simp] theorem State.truncate_wdata (tx : List Byte) (bits : Nat) (s : State) :
    (s.truncate tx bits).wdata = s.wdata := rfl
@[simp] theorem State.truncate_answers (tx : List Byte) (bits : Nat) (s : State) :
    (s.truncate tx bits).answers = s.answers := rfl
@[simp] theorem State.truncate_loopS (tx : List Byte) (bits : Nat) (s : State) :
    (s.truncate tx bits).loopS = s.loopS := rfl
@[simp] theorem State.truncate_loopLast (tx : List Byte) (bits : Nat) (s : State) :
    (s.truncate tx bits).loopLast = s.loopLast := rfl
@[simp] theorem State.truncate_rdata (tx : List Byte) (bits : Nat) (s : State) :
    (s.truncate tx bits).rdata = s.rdata := rfl
@[simp] theorem State.truncate_resp (tx : List Byte) (bits : Nat) (s : State) :
    (s.truncate tx bits).resp = s.resp := rfl
@[simp] theorem State.truncate_respValid (tx : List Byte) (bits : Nat) (s : State) :
    (s.truncate tx bits).respValid = s.respValid := rfl
@[simp] theorem State.truncate_csN (tx : List Byte) (bits : Nat) (s : State) : (s.truncate tx bits).csN = s.csN := rfl
@[simp] theorem State.truncate_sck (tx : List Byte) (bits : Nat) (s : State) : (s.truncate tx bits).sck = s.sck := rfl
@[simp] theorem State.truncate_mosi (tx : List Byte) (bits : Nat) (s : State) :
    (s.truncate tx bits).mosi = s.mosi := rfl
@[simp] theorem State.truncate_result (tx : List Byte) (bits : Nat) (s : State) :
    (s.truncate tx bits).result = s.result := rfl
@[simp] theorem State.truncate_sckHz (tx : List Byte) (bits : Nat) (s : State) :
    (s.truncate tx bits).sckHz = s.sckHz := rfl
@[simp] theorem State.truncate_csId (tx : List Byte) (bits : Nat) (s : State) :
    (s.truncate tx bits).csId = s.csId := rfl
@[simp] theorem State.truncate_env (tx : List Byte) (bits : Nat) (s : State) : (s.truncate tx bits).env = s.env := rfl
@[simp] theorem State.truncate_misoIn (tx : List Byte) (bits : Nat) (s : State) :
    (s.truncate tx bits).misoIn = s.misoIn := rfl
@[simp] theorem State.truncate_host (tx : List Byte) (bits : Nat) (s : State) :
    (s.truncate tx bits).host = s.host := rfl
@[simp] theorem State.truncate_rstIn (tx : List Byte) (bits : Nat) (s : State) :
    (s.truncate tx bits).rstIn = s.rstIn := rfl
@[simp] theorem State.truncate_rstHeld (tx : List Byte) (bits : Nat) (s : State) :
    (s.truncate tx bits).rstHeld = s.rstHeld := rfl
@[simp] theorem State.truncate_draws (tx : List Byte) (bits : Nat) (s : State) :
    (s.truncate tx bits).draws = s.draws + 3 := rfl
@[simp] theorem State.truncate_trace (tx : List Byte) (bits : Nat) (s : State) :
    (s.truncate tx bits).trace = { tx := tx, rx := [], cut := some bits } :: s.trace := rfl

/-! ## State.emit -/

@[simp] theorem State.emit_seqState (bytes : List Byte) (s : State) : (s.emit bytes).seqState = s.seqState := rfl
@[simp] theorem State.emit_req (bytes : List Byte) (s : State) : (s.emit bytes).req = s.req := rfl
@[simp] theorem State.emit_wdata (bytes : List Byte) (s : State) : (s.emit bytes).wdata = s.wdata := rfl
@[simp] theorem State.emit_answers (bytes : List Byte) (s : State) : (s.emit bytes).answers = s.answers := rfl
@[simp] theorem State.emit_loopS (bytes : List Byte) (s : State) : (s.emit bytes).loopS = s.loopS := rfl
@[simp] theorem State.emit_loopLast (bytes : List Byte) (s : State) : (s.emit bytes).loopLast = s.loopLast := rfl
@[simp] theorem State.emit_rdata (bytes : List Byte) (s : State) : (s.emit bytes).rdata = s.rdata ++ bytes := rfl
@[simp] theorem State.emit_resp (bytes : List Byte) (s : State) : (s.emit bytes).resp = s.resp := rfl
@[simp] theorem State.emit_respValid (bytes : List Byte) (s : State) : (s.emit bytes).respValid = s.respValid := rfl
@[simp] theorem State.emit_csN (bytes : List Byte) (s : State) : (s.emit bytes).csN = s.csN := rfl
@[simp] theorem State.emit_sck (bytes : List Byte) (s : State) : (s.emit bytes).sck = s.sck := rfl
@[simp] theorem State.emit_mosi (bytes : List Byte) (s : State) : (s.emit bytes).mosi = s.mosi := rfl
@[simp] theorem State.emit_result (bytes : List Byte) (s : State) : (s.emit bytes).result = s.result := rfl
@[simp] theorem State.emit_sckHz (bytes : List Byte) (s : State) : (s.emit bytes).sckHz = s.sckHz := rfl
@[simp] theorem State.emit_csId (bytes : List Byte) (s : State) : (s.emit bytes).csId = s.csId := rfl
@[simp] theorem State.emit_dev (bytes : List Byte) (s : State) : (s.emit bytes).dev = s.dev := rfl
@[simp] theorem State.emit_env (bytes : List Byte) (s : State) : (s.emit bytes).env = s.env := rfl
@[simp] theorem State.emit_misoIn (bytes : List Byte) (s : State) : (s.emit bytes).misoIn = s.misoIn := rfl
@[simp] theorem State.emit_host (bytes : List Byte) (s : State) : (s.emit bytes).host = s.host := rfl
@[simp] theorem State.emit_rstIn (bytes : List Byte) (s : State) : (s.emit bytes).rstIn = s.rstIn := rfl
@[simp] theorem State.emit_rstHeld (bytes : List Byte) (s : State) : (s.emit bytes).rstHeld = s.rstHeld := rfl
@[simp] theorem State.emit_draws (bytes : List Byte) (s : State) : (s.emit bytes).draws = s.draws := rfl
@[simp] theorem State.emit_trace (bytes : List Byte) (s : State) : (s.emit bytes).trace = s.trace := rfl

/-! ## State.writeResp -/

@[simp] theorem State.writeResp_seqState (ok : Bool) (c : Cause) (val : BitVec 32) (s : State) :
    (s.writeResp ok c val).seqState = .idle := rfl
@[simp] theorem State.writeResp_req (ok : Bool) (c : Cause) (val : BitVec 32) (s : State) :
    (s.writeResp ok c val).req = s.req := rfl
@[simp] theorem State.writeResp_wdata (ok : Bool) (c : Cause) (val : BitVec 32) (s : State) :
    (s.writeResp ok c val).wdata = s.wdata := rfl
@[simp] theorem State.writeResp_answers (ok : Bool) (c : Cause) (val : BitVec 32) (s : State) :
    (s.writeResp ok c val).answers = [] := rfl
@[simp] theorem State.writeResp_loopS (ok : Bool) (c : Cause) (val : BitVec 32) (s : State) :
    (s.writeResp ok c val).loopS = s.loopS := rfl
@[simp] theorem State.writeResp_loopLast (ok : Bool) (c : Cause) (val : BitVec 32) (s : State) :
    (s.writeResp ok c val).loopLast = s.loopLast := rfl
@[simp] theorem State.writeResp_rdata (ok : Bool) (c : Cause) (val : BitVec 32) (s : State) :
    (s.writeResp ok c val).rdata = s.rdata := rfl
@[simp] theorem State.writeResp_resp (ok : Bool) (c : Cause) (val : BitVec 32) (s : State) :
    (s.writeResp ok c val).resp = respWord ok c val := rfl
@[simp] theorem State.writeResp_respValid (ok : Bool) (c : Cause) (val : BitVec 32) (s : State) :
    (s.writeResp ok c val).respValid = true := rfl
@[simp] theorem State.writeResp_csN (ok : Bool) (c : Cause) (val : BitVec 32) (s : State) :
    (s.writeResp ok c val).csN = s.csN := rfl
@[simp] theorem State.writeResp_sck (ok : Bool) (c : Cause) (val : BitVec 32) (s : State) :
    (s.writeResp ok c val).sck = s.sck := rfl
@[simp] theorem State.writeResp_mosi (ok : Bool) (c : Cause) (val : BitVec 32) (s : State) :
    (s.writeResp ok c val).mosi = s.mosi := rfl
@[simp] theorem State.writeResp_result (ok : Bool) (c : Cause) (val : BitVec 32) (s : State) :
    (s.writeResp ok c val).result = s.result := rfl
@[simp] theorem State.writeResp_sckHz (ok : Bool) (c : Cause) (val : BitVec 32) (s : State) :
    (s.writeResp ok c val).sckHz = s.sckHz := rfl
@[simp] theorem State.writeResp_csId (ok : Bool) (c : Cause) (val : BitVec 32) (s : State) :
    (s.writeResp ok c val).csId = s.csId := rfl
@[simp] theorem State.writeResp_dev (ok : Bool) (c : Cause) (val : BitVec 32) (s : State) :
    (s.writeResp ok c val).dev = s.dev := rfl
@[simp] theorem State.writeResp_env (ok : Bool) (c : Cause) (val : BitVec 32) (s : State) :
    (s.writeResp ok c val).env = s.env := rfl
@[simp] theorem State.writeResp_misoIn (ok : Bool) (c : Cause) (val : BitVec 32) (s : State) :
    (s.writeResp ok c val).misoIn = s.misoIn := rfl
@[simp] theorem State.writeResp_host (ok : Bool) (c : Cause) (val : BitVec 32) (s : State) :
    (s.writeResp ok c val).host = s.host := rfl
@[simp] theorem State.writeResp_rstIn (ok : Bool) (c : Cause) (val : BitVec 32) (s : State) :
    (s.writeResp ok c val).rstIn = s.rstIn := rfl
@[simp] theorem State.writeResp_rstHeld (ok : Bool) (c : Cause) (val : BitVec 32) (s : State) :
    (s.writeResp ok c val).rstHeld = s.rstHeld := rfl
@[simp] theorem State.writeResp_draws (ok : Bool) (c : Cause) (val : BitVec 32) (s : State) :
    (s.writeResp ok c val).draws = s.draws := rfl
@[simp] theorem State.writeResp_trace (ok : Bool) (c : Cause) (val : BitVec 32) (s : State) :
    (s.writeResp ok c val).trace = s.trace := rfl

/-! ## State.accept -/

@[simp] theorem State.accept_seqState (w : BitVec 64) (data : Option Page) (s : State) :
    (s.accept w data).seqState = .run := rfl
@[simp] theorem State.accept_req (w : BitVec 64) (data : Option Page) (s : State) : (s.accept w data).req = w := rfl
@[simp] theorem State.accept_wdata (w : BitVec 64) (data : Option Page) (s : State) :
    (s.accept w data).wdata = data.getD s.wdata := rfl
@[simp] theorem State.accept_answers (w : BitVec 64) (data : Option Page) (s : State) :
    (s.accept w data).answers = [] := rfl
@[simp] theorem State.accept_loopS (w : BitVec 64) (data : Option Page) (s : State) :
    (s.accept w data).loopS = s.loopS := rfl
@[simp] theorem State.accept_loopLast (w : BitVec 64) (data : Option Page) (s : State) :
    (s.accept w data).loopLast = s.loopLast := rfl
@[simp] theorem State.accept_rdata (w : BitVec 64) (data : Option Page) (s : State) :
    (s.accept w data).rdata = s.rdata := rfl
@[simp] theorem State.accept_resp (w : BitVec 64) (data : Option Page) (s : State) :
    (s.accept w data).resp = s.resp := rfl
@[simp] theorem State.accept_respValid (w : BitVec 64) (data : Option Page) (s : State) :
    (s.accept w data).respValid = false := rfl
@[simp] theorem State.accept_csN (w : BitVec 64) (data : Option Page) (s : State) :
    (s.accept w data).csN = s.csN := rfl
@[simp] theorem State.accept_sck (w : BitVec 64) (data : Option Page) (s : State) :
    (s.accept w data).sck = s.sck := rfl
@[simp] theorem State.accept_mosi (w : BitVec 64) (data : Option Page) (s : State) :
    (s.accept w data).mosi = s.mosi := rfl
@[simp] theorem State.accept_result (w : BitVec 64) (data : Option Page) (s : State) :
    (s.accept w data).result = s.result := rfl
@[simp] theorem State.accept_sckHz (w : BitVec 64) (data : Option Page) (s : State) :
    (s.accept w data).sckHz = s.sckHz := rfl
@[simp] theorem State.accept_csId (w : BitVec 64) (data : Option Page) (s : State) :
    (s.accept w data).csId = s.csId := rfl
@[simp] theorem State.accept_dev (w : BitVec 64) (data : Option Page) (s : State) :
    (s.accept w data).dev = s.dev := rfl
@[simp] theorem State.accept_env (w : BitVec 64) (data : Option Page) (s : State) :
    (s.accept w data).env = s.env := rfl
@[simp] theorem State.accept_misoIn (w : BitVec 64) (data : Option Page) (s : State) :
    (s.accept w data).misoIn = s.misoIn := rfl
@[simp] theorem State.accept_host (w : BitVec 64) (data : Option Page) (s : State) :
    (s.accept w data).host = s.host := rfl
@[simp] theorem State.accept_rstIn (w : BitVec 64) (data : Option Page) (s : State) :
    (s.accept w data).rstIn = s.rstIn := rfl
@[simp] theorem State.accept_rstHeld (w : BitVec 64) (data : Option Page) (s : State) :
    (s.accept w data).rstHeld = s.rstHeld := rfl
@[simp] theorem State.accept_draws (w : BitVec 64) (data : Option Page) (s : State) :
    (s.accept w data).draws = s.draws := rfl
@[simp] theorem State.accept_trace (w : BitVec 64) (data : Option Page) (s : State) :
    (s.accept w data).trace = s.trace := rfl

/-! ## State.noteAnswer -/

@[simp] theorem State.noteAnswer_seqState (s : State) : (s.noteAnswer).seqState = s.seqState := rfl
@[simp] theorem State.noteAnswer_req (s : State) : (s.noteAnswer).req = s.req := rfl
@[simp] theorem State.noteAnswer_wdata (s : State) : (s.noteAnswer).wdata = s.wdata := rfl
@[simp] theorem State.noteAnswer_answers (s : State) : (s.noteAnswer).answers = s.answers ++ [s.result] := rfl
@[simp] theorem State.noteAnswer_loopS (s : State) : (s.noteAnswer).loopS = s.loopS := rfl
@[simp] theorem State.noteAnswer_loopLast (s : State) : (s.noteAnswer).loopLast = s.loopLast := rfl
@[simp] theorem State.noteAnswer_rdata (s : State) : (s.noteAnswer).rdata = s.rdata := rfl
@[simp] theorem State.noteAnswer_resp (s : State) : (s.noteAnswer).resp = s.resp := rfl
@[simp] theorem State.noteAnswer_respValid (s : State) : (s.noteAnswer).respValid = s.respValid := rfl
@[simp] theorem State.noteAnswer_csN (s : State) : (s.noteAnswer).csN = s.csN := rfl
@[simp] theorem State.noteAnswer_sck (s : State) : (s.noteAnswer).sck = s.sck := rfl
@[simp] theorem State.noteAnswer_mosi (s : State) : (s.noteAnswer).mosi = s.mosi := rfl
@[simp] theorem State.noteAnswer_result (s : State) : (s.noteAnswer).result = s.result := rfl
@[simp] theorem State.noteAnswer_sckHz (s : State) : (s.noteAnswer).sckHz = s.sckHz := rfl
@[simp] theorem State.noteAnswer_csId (s : State) : (s.noteAnswer).csId = s.csId := rfl
@[simp] theorem State.noteAnswer_dev (s : State) : (s.noteAnswer).dev = s.dev := rfl
@[simp] theorem State.noteAnswer_env (s : State) : (s.noteAnswer).env = s.env := rfl
@[simp] theorem State.noteAnswer_misoIn (s : State) : (s.noteAnswer).misoIn = s.misoIn := rfl
@[simp] theorem State.noteAnswer_host (s : State) : (s.noteAnswer).host = s.host := rfl
@[simp] theorem State.noteAnswer_rstIn (s : State) : (s.noteAnswer).rstIn = s.rstIn := rfl
@[simp] theorem State.noteAnswer_rstHeld (s : State) : (s.noteAnswer).rstHeld = s.rstHeld := rfl
@[simp] theorem State.noteAnswer_draws (s : State) : (s.noteAnswer).draws = s.draws := rfl
@[simp] theorem State.noteAnswer_trace (s : State) : (s.noteAnswer).trace = s.trace := rfl

/-! ## State.setLoop -/

@[simp] theorem State.setLoop_seqState (i last : BitVec 20) (s : State) :
    (s.setLoop i last).seqState = s.seqState := rfl
@[simp] theorem State.setLoop_req (i last : BitVec 20) (s : State) : (s.setLoop i last).req = s.req := rfl
@[simp] theorem State.setLoop_wdata (i last : BitVec 20) (s : State) : (s.setLoop i last).wdata = s.wdata := rfl
@[simp] theorem State.setLoop_answers (i last : BitVec 20) (s : State) : (s.setLoop i last).answers = s.answers := rfl
@[simp] theorem State.setLoop_loopS (i last : BitVec 20) (s : State) : (s.setLoop i last).loopS = i := rfl
@[simp] theorem State.setLoop_loopLast (i last : BitVec 20) (s : State) : (s.setLoop i last).loopLast = last := rfl
@[simp] theorem State.setLoop_rdata (i last : BitVec 20) (s : State) : (s.setLoop i last).rdata = s.rdata := rfl
@[simp] theorem State.setLoop_resp (i last : BitVec 20) (s : State) : (s.setLoop i last).resp = s.resp := rfl
@[simp] theorem State.setLoop_respValid (i last : BitVec 20) (s : State) :
    (s.setLoop i last).respValid = s.respValid := rfl
@[simp] theorem State.setLoop_csN (i last : BitVec 20) (s : State) : (s.setLoop i last).csN = s.csN := rfl
@[simp] theorem State.setLoop_sck (i last : BitVec 20) (s : State) : (s.setLoop i last).sck = s.sck := rfl
@[simp] theorem State.setLoop_mosi (i last : BitVec 20) (s : State) : (s.setLoop i last).mosi = s.mosi := rfl
@[simp] theorem State.setLoop_result (i last : BitVec 20) (s : State) : (s.setLoop i last).result = s.result := rfl
@[simp] theorem State.setLoop_sckHz (i last : BitVec 20) (s : State) : (s.setLoop i last).sckHz = s.sckHz := rfl
@[simp] theorem State.setLoop_csId (i last : BitVec 20) (s : State) : (s.setLoop i last).csId = s.csId := rfl
@[simp] theorem State.setLoop_dev (i last : BitVec 20) (s : State) : (s.setLoop i last).dev = s.dev := rfl
@[simp] theorem State.setLoop_env (i last : BitVec 20) (s : State) : (s.setLoop i last).env = s.env := rfl
@[simp] theorem State.setLoop_misoIn (i last : BitVec 20) (s : State) : (s.setLoop i last).misoIn = s.misoIn := rfl
@[simp] theorem State.setLoop_host (i last : BitVec 20) (s : State) : (s.setLoop i last).host = s.host := rfl
@[simp] theorem State.setLoop_rstIn (i last : BitVec 20) (s : State) : (s.setLoop i last).rstIn = s.rstIn := rfl
@[simp] theorem State.setLoop_rstHeld (i last : BitVec 20) (s : State) : (s.setLoop i last).rstHeld = s.rstHeld := rfl
@[simp] theorem State.setLoop_draws (i last : BitVec 20) (s : State) : (s.setLoop i last).draws = s.draws := rfl
@[simp] theorem State.setLoop_trace (i last : BitVec 20) (s : State) : (s.setLoop i last).trace = s.trace := rfl

end Sys2Proof.Machine
end

