-- ==== Sys2Proof/Laws/Ops.lean ====
section
/-! SUPPORT. For each shared operation of Machine/Ops.lean what it can do: the answers, the transaction and the response
when no pulse of RST is pending, and every way a transaction or a response can go when one is. -/

namespace Sys2Proof.Machine

/-! ## The environment -/

theorem State.elapse_dev_reference {s : State} (h : s.env = .reference) : s.elapse.dev = s.dev.elapse s.draws := by
  simp [State.elapse, h]

theorem State.elapse_dev_unconstrained {s : State} (h : s.env = .unconstrained) : s.elapse.dev = s.dev := by
  simp [State.elapse, h]

/-- A gap does nothing to an idle reference device. -/
theorem State.elapse_dev_idle {s : State} (h : s.dev.busy = false) : s.elapse.dev = s.dev := by
  cases he : s.env
  · rw [State.elapse_dev_reference he, Device.elapse_idle _ _ h]
  · exact State.elapse_dev_unconstrained he

theorem State.elapse_dev_busy {s : State} {k : Nat} (he : s.env = .reference) (h : s.dev.busy = true)
    (hk : s.dev.busyLeft = k + 1) : s.elapse.dev = { s.dev with busyLeft := k } := by
  rw [State.elapse_dev_reference he, Device.elapse_busy _ _ _ h hk]

theorem State.answer_reference {s : State} (h : s.env = .reference) (tx : List Byte) :
    s.answer tx = s.dev.answer s.draws tx := by
  simp [State.answer, h]

theorem State.answer_unconstrained {s : State} (h : s.env = .unconstrained) (tx : List Byte) :
    s.answer tx = openAnswer s.draws s.misoIn tx.length := by
  simp [State.answer, h]

@[simp] theorem openAnswer_length (n : Nat) (input : List Byte) (len : Nat) :
    (openAnswer n input len).length = len := by
  simp [openAnswer]

/-- An input byte that is there is the byte received. -/
theorem openAnswer_getD (n : Nat) (input : List Byte) (len i : Nat) (h : i < len) (hi : i < input.length) (x : Byte) :
    (openAnswer n input len).getD i x = input.getD i x := by
  simp [openAnswer, List.getD_eq_getElem?_getD, h, hi]

/-- As many bytes are received as are sent (00_scope R8). -/
@[simp] theorem State.answer_length (s : State) (tx : List Byte) : (s.answer tx).length = tx.length := by
  cases h : s.env
  · rw [State.answer_reference h, Device.answer_length]
  · rw [State.answer_unconstrained h, openAnswer_length]

/-! ## The transaction -/

theorem State.xfer_dev_reference {s : State} (h : s.env = .reference) (tx : List Byte) :
    (s.xfer tx).dev = (s.elapse.dev).act (s.draws + 1 + tx.length) tx := by
  simp [State.xfer, State.deselect, h]

theorem State.xfer_dev_unconstrained {s : State} (h : s.env = .unconstrained) (tx : List Byte) :
    (s.xfer tx).dev = s.dev := by
  simp [State.xfer, State.deselect, State.exchange, State.select, State.elapse, h]

theorem State.xfer_misoIn_reference {s : State} (h : s.env = .reference) (tx : List Byte) :
    (s.xfer tx).misoIn = s.misoIn := by
  simp [State.xfer, State.exchange, h]

theorem State.xfer_misoIn_unconstrained {s : State} (h : s.env = .unconstrained) (tx : List Byte) :
    (s.xfer tx).misoIn = s.misoIn.drop tx.length := by
  simp [State.xfer, State.exchange, h]

/-- A transaction leaves the array as the gap before it left it: commands change it at completion only (R67, R68). -/
theorem State.xfer_array (s : State) (tx : List Byte) : (s.xfer tx).dev.array = s.elapse.dev.array := by
  cases h : s.env
  · rw [State.xfer_dev_reference h, Device.act_array]
  · rw [State.xfer_dev_unconstrained h, State.elapse_dev_unconstrained h]

theorem State.elapse_same (s : State) : SameDevice s.dev s.elapse.dev := by
  cases h : s.env
  · rw [State.elapse_dev_reference h]; exact Device.elapse_same _ _
  · rw [State.elapse_dev_unconstrained h]; exact SameDevice.refl _

theorem State.xfer_same (s : State) (tx : List Byte) : SameDevice s.dev (s.xfer tx).dev := by
  cases h : s.env
  · rw [State.xfer_dev_reference h]
    exact SameDevice.trans s.elapse_same (Device.act_same _ _ _)
  · rw [State.xfer_dev_unconstrained h]; exact SameDevice.refl _

theorem State.elapse_wf {s : State} (h : s.dev.array.wf = true) : s.elapse.dev.array.wf = true := by
  cases he : s.env
  · rw [State.elapse_dev_reference he]; exact Device.elapse_wf _ _ h
  · rw [State.elapse_dev_unconstrained he]; exact h

/-- A transaction keeps the canonical form of the array. -/
theorem State.xfer_wf {s : State} (h : s.dev.array.wf = true) (tx : List Byte) : (s.xfer tx).dev.array.wf = true := by
  rw [State.xfer_array]; exact State.elapse_wf h

/-! ## With no pulse of RST pending -/

theorem State.transact_quiet {s : State} (h : s.rstIn = none) (tx : List Byte) : s.transact tx = (s.xfer tx, true) := by
  simp [State.transact, h]

theorem State.respond_quiet {s : State} (h : s.rstIn = none) (ok : Bool) (c : Cause) (val : BitVec 32) :
    s.respond ok c val = s.writeResp ok c val := by
  simp [State.respond, h]

/-! ## Every way it can go -/

/-- A transaction is completed, perhaps with a pulse of RST coming nearer, or a reset stops it before or inside its
frame (70 R231). -/
theorem State.transact_cases (s : State) (tx : List Byte) :
    (∃ p, s.transact tx = ({ s with rstIn := p }.xfer tx, true)) ∨
    (∃ hold, s.transact tx = (s.assertRst hold, false)) ∨
    (∃ hold bits, s.transact tx = ((s.elapse.truncate tx bits).assertRst hold, false)) := by
  simp only [State.transact]
  split
  · exact .inl ⟨s.rstIn, by simp⟩
  · split
    · exact .inl ⟨_, rfl⟩
    · split
      · exact .inr (.inl ⟨_, rfl⟩)
      · split
        · exact .inr (.inr ⟨_, _, rfl⟩)
        · exact .inl ⟨_, rfl⟩

/-- A response is written, perhaps with a pulse of RST coming nearer, or a reset leaves none (70 R231). -/
theorem State.respond_cases (s : State) (ok : Bool) (c : Cause) (val : BitVec 32) :
    (∃ p, s.respond ok c val = { s with rstIn := p }.writeResp ok c val) ∨
    (∃ hold, s.respond ok c val = s.assertRst hold) := by
  simp only [State.respond]
  split
  · exact .inl ⟨s.rstIn, by simp⟩
  · split
    · exact .inl ⟨_, rfl⟩
    · exact .inr ⟨_, rfl⟩

/-- Every response, and every reset that takes its place, leaves the block in IDLE (R207, R231). -/
@[simp] theorem State.respond_seqState (s : State) (ok : Bool) (c : Cause) (val : BitVec 32) :
    (s.respond ok c val).seqState = .idle := by
  rcases s.respond_cases ok c val with ⟨p, h⟩ | ⟨hold, h⟩ <;> rw [h] <;> rfl

end Sys2Proof.Machine
end

