-- ==== Sys2Proof/Laws/PerInstr.lean ====
section
/-! SUPPORT. Statements for all instructions, made per instruction. Shape: a wire command is encoded as a frame whose
first byte is one of the nine opcodes (30_encoding R92), a host operation as a request word with its reserved bits 0 and
an OP between 0x01 and 0x13 (R100, R102). -/

namespace Sys2Proof.Laws.Shape

/-- The nine wire opcodes (R92). -/
def opcodes : List Byte := [0x05, 0x35, 0x15, 0xB7, 0x06, 0xAB, 0x13, 0x12, 0x21]

/-- The shape of a frame of a wire command, and of a request word of a host operation. -/
def codeShape (wire : Bool) : Code → Prop
  | .frame tx => wire = true ∧ ∃ op rest, tx = op :: rest ∧ op ∈ opcodes
  | .req w => wire = false ∧ reqReserved w = 0#9 ∧ 1 ≤ (reqOp w).toNat ∧ (reqOp w).toNat ≤ 0x13

/-- Every instruction is encoded in the space its row belongs to. -/
def Statement (i : Instr) : Prop := codeShape i.isWire (encode i)

/-- A packed request word has the shape of its OP. -/
theorem codeShape_packReq {op : BitVec 5} (which : BitVec 2) (len : BitVec 16) (arg : BitVec 32)
    (h : 1 ≤ op.toNat ∧ op.toNat ≤ 0x13) : codeShape false (.req (packReq op which len arg)) :=
  ⟨rfl, reqReserved_packReq _ _ _ _, by rwa [reqOp_packReq]⟩

theorem encSr1 : Statement .encSr1 := ⟨rfl, _, _, rfl, by decide⟩
theorem encSr2 : Statement .encSr2 := ⟨rfl, _, _, rfl, by decide⟩
theorem encSr3 : Statement .encSr3 := ⟨rfl, _, _, rfl, by decide⟩
theorem encEnter4b : Statement .encEnter4b := ⟨rfl, _, _, rfl, by decide⟩
theorem encWren : Statement .encWren := ⟨rfl, _, _, rfl, by decide⟩
theorem encId : Statement .encId := ⟨rfl, _, _, rfl, by decide⟩
theorem encRead (a : BitVec 32) (n : BitVec 16) : Statement (.encRead a n) := ⟨rfl, _, _, rfl, by decide⟩
theorem encProg (a : BitVec 32) (d : List Byte) : Statement (.encProg a d) := ⟨rfl, _, _, rfl, by decide⟩
theorem encErase (a : BitVec 32) : Statement (.encErase a) := ⟨rfl, _, _, rfl, by decide⟩
theorem begin : Statement .begin := codeShape_packReq _ _ _ (by decide)
theorem readSr1 : Statement .readSr1 := codeShape_packReq _ _ _ (by decide)
theorem readSr2 : Statement .readSr2 := codeShape_packReq _ _ _ (by decide)
theorem readSr3 : Statement .readSr3 := codeShape_packReq _ _ _ (by decide)
theorem busy : Statement .busy := codeShape_packReq _ _ _ (by decide)
theorem writeEnabled : Statement .writeEnabled := codeShape_packReq _ _ _ (by decide)
theorem addrMode4b : Statement .addrMode4b := codeShape_packReq _ _ _ (by decide)
theorem enter4b : Statement .enter4b := codeShape_packReq _ _ _ (by decide)
theorem enableWrite : Statement .enableWrite := codeShape_packReq _ _ _ (by decide)
theorem readId : Statement .readId := codeShape_packReq _ _ _ (by decide)
theorem works : Statement .works := codeShape_packReq _ _ _ (by decide)
theorem readRaw (a : BitVec 32) (n : BitVec 16) : Statement (.readRaw a n) := codeShape_packReq _ _ _ (by decide)
theorem programPage (a : BitVec 32) : Statement (.programPage a) := codeShape_packReq _ _ _ (by decide)
theorem eraseSector (a : BitVec 32) : Statement (.eraseSector a) := codeShape_packReq _ _ _ (by decide)
theorem readPage (p : BitVec 24) : Statement (.readPage p) := codeShape_packReq _ _ _ (by decide)
theorem writePage (p : BitVec 24) : Statement (.writePage p) := codeShape_packReq _ _ _ (by decide)
theorem sectorErase (m : BitVec 20) : Statement (.sectorErase m) := codeShape_packReq _ _ _ (by decide)
theorem eraseUpToPage (p : BitVec 24) : Statement (.eraseUpToPage p) := codeShape_packReq _ _ _ (by decide)
theorem pageAddr (p : BitVec 24) : Statement (.pageAddr p) := codeShape_packReq _ _ _ (by decide)
theorem sectorAddr (m : BitVec 20) : Statement (.sectorAddr m) := codeShape_packReq _ _ _ (by decide)
theorem sectorOfPage (p : BitVec 24) : Statement (.sectorOfPage p) := codeShape_packReq _ _ _ (by decide)

end Sys2Proof.Laws.Shape
end

