-- ==== Sys2Proof/Laws/Sequencer.lean ====
section
/-! SUPPORT. Laws of the sequencer: how a sequence runs one node at a time when no pulse of RST is pending, and what
every run keeps, whatever the environment answers and whenever RST comes. -/

namespace Sys2Proof.Machine

/-! ## One node at a time -/

@[simp] theorem Prog.run_emit (bytes : List Byte) (p : Prog) (s : State) :
    (Prog.emit bytes p).run s = p.run (s.emit bytes) := rfl

@[simp] theorem Prog.run_setLoop (i last : BitVec 20) (p : Prog) (s : State) :
    (Prog.setLoop i last p).run s = p.run (s.setLoop i last) := rfl

@[simp] theorem Prog.run_respond (ok : Bool) (c : Cause) (val : BitVec 32) (s : State) :
    (Prog.respond ok c val).run s = s.respond ok c val := rfl

/-- The state after a transaction whose answer has become part of the sequencer step. -/
def State.after (tx : List Byte) (s : State) : State := (s.xfer tx).noteAnswer

theorem Prog.run_xfer_quiet {s : State} (h : s.rstIn = none) (tx : List Byte) (k : List Byte → Prog) :
    (Prog.xfer tx k).run s = (k (misoUsed tx (s.elapse.answer tx))).run (s.after tx) := by
  simp [Prog.run, State.transact_quiet h, State.after]

@[simp] theorem State.after_rstIn (tx : List Byte) (s : State) : (s.after tx).rstIn = s.rstIn := by simp [State.after]
@[simp] theorem State.after_env (tx : List Byte) (s : State) : (s.after tx).env = s.env := by simp [State.after]
@[simp] theorem State.after_dev (tx : List Byte) (s : State) : (s.after tx).dev = (s.xfer tx).dev := by simp [State.after]
@[simp] theorem State.after_misoIn (tx : List Byte) (s : State) : (s.after tx).misoIn = (s.xfer tx).misoIn := by simp [State.after]
@[simp] theorem State.after_draws (tx : List Byte) (s : State) :
    (s.after tx).draws = s.draws + 1 + tx.length + 1 := rfl
@[simp] theorem State.after_trace (tx : List Byte) (s : State) :
    (s.after tx).trace = { tx := tx, rx := s.elapse.answer tx, cut := none } :: s.trace := rfl
@[simp] theorem State.after_result (tx : List Byte) (s : State) :
    (s.after tx).result = misoUsed tx (s.elapse.answer tx) := rfl
@[simp] theorem State.after_rdata (tx : List Byte) (s : State) : (s.after tx).rdata = s.rdata := by simp [State.after]

/-- A status query goes on with byte 1 of the answer. -/
theorem srQuery_run_quiet {s : State} (h : s.rstIn = none) (frame : List Byte)
    (hf : ∀ rx, misoUsed frame rx = [rx.getD 1 0]) (k : Byte → Prog) :
    (srQuery frame k).run s = (k ((s.elapse.answer frame).getD 1 0)).run (s.after frame) := by
  rw [srQuery, Prog.run_xfer_quiet h, hf]; rfl

theorem busyQ_run_quiet {s : State} (h : s.rstIn = none) (k : Bool → Prog) :
    (busyQ k).run s = (k (busyBit ((s.elapse.answer encSr1).getD 1 0))).run (s.after encSr1) :=
  srQuery_run_quiet h _ (fun _ => rfl) _

theorem welQ_run_quiet {s : State} (h : s.rstIn = none) (k : Bool → Prog) :
    (welQ k).run s = (k (welBit ((s.elapse.answer encSr1).getD 1 0))).run (s.after encSr1) :=
  srQuery_run_quiet h _ (fun _ => rfl) _

theorem adsQ_run_quiet {s : State} (h : s.rstIn = none) (k : Bool → Prog) :
    (adsQ k).run s = (k (adsBit ((s.elapse.answer encSr3).getD 1 0))).run (s.after encSr3) :=
  srQuery_run_quiet h _ (fun _ => rfl) _

/-! ## What the reference device answers to the status queries -/

theorem answer_sr1_reference {s : State} (h : s.env = .reference) :
    (s.answer encSr1).getD 1 0 = s.dev.sr1 (drawBit (s.draws + 1)) := by
  rw [State.answer_reference h, Device.answer_getD _ _ _ _ (by decide)]; rfl

theorem answer_sr3_reference {s : State} (h : s.env = .reference) : (s.answer encSr3).getD 1 0 = s.dev.sr3 := by
  rw [State.answer_reference h, Device.answer_getD _ _ _ _ (by decide)]; rfl

/-! ## What every run keeps -/

/-- A property of states that a whole sequence keeps: it is enough that every node keeps it. -/
theorem Prog.run_keeps {P : State → Prop}
    (hx : ∀ s p tx, P s → P (({ s with rstIn := p }.xfer tx).noteAnswer))
    (ht : ∀ s tx bits hold, P s → P ((s.elapse.truncate tx bits).assertRst hold))
    (hr : ∀ s hold, P s → P (s.assertRst hold))
    (he : ∀ s bytes, P s → P (s.emit bytes))
    (hl : ∀ s i last, P s → P (s.setLoop i last))
    (hw : ∀ s p ok c val, P s → P ({ s with rstIn := p }.writeResp ok c val)) :
    ∀ (p : Prog) (s : State), P s → P (p.run s) := by
  intro p
  induction p with
  | xfer tx k ih =>
    intro s hs
    simp only [Prog.run]
    rcases s.transact_cases tx with ⟨p, h⟩ | ⟨hold, h⟩ | ⟨hold, bits, h⟩ <;> simp only [h]
    · exact ih _ _ (hx s p tx hs)
    · exact hr s hold hs
    · exact ht s tx bits hold hs
  | emit bytes p ih => intro s hs; exact ih _ (he s bytes hs)
  | setLoop i last p ih => intro s hs; exact ih _ (hl s i last hs)
  | respond ok c val =>
    intro s hs
    rw [Prog.run_respond]
    rcases s.respond_cases ok c val with ⟨p, h⟩ | ⟨hold, h⟩ <;> rw [h]
    · exact hw s p ok c val hs
    · exact hr s hold hs

/-- The frames a sequence can send all satisfy `Q`. -/
def Prog.Sends (Q : List Byte → Prop) : Prog → Prop
  | .xfer tx k => Q tx ∧ ∀ r, (k r).Sends Q
  | .emit _ p => p.Sends Q
  | .setLoop _ _ p => p.Sends Q
  | .respond _ _ _ => True

/-- The same for the properties that depend on the frames sent. -/
theorem Prog.run_keeps_sending {P : State → Prop} {Q : List Byte → Prop}
    (hx : ∀ s p tx, Q tx → P s → P (({ s with rstIn := p }.xfer tx).noteAnswer))
    (ht : ∀ s tx bits hold, Q tx → P s → P ((s.elapse.truncate tx bits).assertRst hold))
    (hr : ∀ s hold, P s → P (s.assertRst hold))
    (he : ∀ s bytes, P s → P (s.emit bytes))
    (hl : ∀ s i last, P s → P (s.setLoop i last))
    (hw : ∀ s p ok c val, P s → P ({ s with rstIn := p }.writeResp ok c val)) :
    ∀ (p : Prog), p.Sends Q → ∀ s, P s → P (p.run s) := by
  intro p
  induction p with
  | xfer tx k ih =>
    intro hp s hs
    simp only [Prog.run]
    rcases s.transact_cases tx with ⟨p, h⟩ | ⟨hold, h⟩ | ⟨hold, bits, h⟩ <;> simp only [h]
    · exact ih _ (hp.2 _) _ (hx s p tx hp.1 hs)
    · exact hr s hold hs
    · exact ht s tx bits hold hp.1 hs
  | emit bytes p ih => intro hp s hs; exact ih hp _ (he s bytes hs)
  | setLoop i last p ih => intro hp s hs; exact ih hp _ (hl s i last hs)
  | respond ok c val =>
    intro _ s hs
    rw [Prog.run_respond]
    rcases s.respond_cases ok c val with ⟨p, h⟩ | ⟨hold, h⟩ <;> rw [h]
    · exact hw s p ok c val hs
    · exact hr s hold hs

/-- An operation run to its end leaves the block in IDLE (R21, R207, 70 R231). -/
theorem Prog.run_seqState (p : Prog) (s : State) : (p.run s).seqState = .idle := by
  induction p generalizing s with
  | xfer tx k ih =>
    simp only [Prog.run]
    rcases s.transact_cases tx with ⟨p, h⟩ | ⟨hold, h⟩ | ⟨hold, bits, h⟩ <;> simp only [h]
    · exact ih _ _
    · rfl
    · rfl
  | emit bytes p ih => exact ih _
  | setLoop i last p ih => exact ih _
  | respond ok c val => exact State.respond_seqState _ _ _ _

end Sys2Proof.Machine
end

