-- ==== Sys2Proof/Laws/Sequences.lean ====
section
/-! SUPPORT. What the sequences of the operations come to when no pulse of RST is pending: one equation a sequence, in
any environment, and the records (`Via`, `SameData`) from which `Answered` is put together. -/

namespace Sys2Proof.Machine

/-! ## From acceptance to the response -/

/-- The state in which a sequence begins (R21, R27). -/
def State.start (s : State) : State := { s with seqState := .run, respValid := false, answers := [] }

theorem serve_eq (p : Prog) (s : State) : serve p s = .next (p.run s.start) := rfl

@[simp] theorem State.start_rstIn (s : State) : s.start.rstIn = s.rstIn := rfl
@[simp] theorem State.start_env (s : State) : s.start.env = s.env := rfl
@[simp] theorem State.start_dev (s : State) : s.start.dev = s.dev := rfl
@[simp] theorem State.start_draws (s : State) : s.start.draws = s.draws := rfl
@[simp] theorem State.start_misoIn (s : State) : s.start.misoIn = s.misoIn := rfl
@[simp] theorem State.start_rdata (s : State) : s.start.rdata = s.rdata := rfl
@[simp] theorem State.start_trace (s : State) : s.start.trace = s.trace := rfl
@[simp] theorem State.start_elapse_dev (s : State) : s.start.elapse.dev = s.elapse.dev := rfl

/-- `t` is reached from `s` by exactly the transactions `xs`, the oldest first. -/
structure Via (s t : State) (xs : List BusXact) : Prop where
  trace : t.trace = xs.reverse ++ s.trace
  bus : if xs = [] then t.csN = s.csN ∧ t.sck = s.sck ∧ t.mosi = s.mosi else t.csN = true ∧ t.sck = false
  block : SameBlock s t

theorem SameBlock.refl (s : State) : SameBlock s s := ⟨rfl, rfl, rfl, rfl, rfl, rfl, rfl, rfl⟩

theorem SameBlock.trans {s t u : State} (h : SameBlock s t) (g : SameBlock t u) : SameBlock s u :=
  ⟨g.1.trans h.1, g.2.trans h.2, g.3.trans h.3, g.4.trans h.4, g.5.trans h.5, g.6.trans h.6, g.7.trans h.7,
    g.8.trans h.8⟩

theorem Via.start (s : State) : Via s s.start [] := ⟨rfl, ⟨rfl, rfl, rfl⟩, ⟨rfl, rfl, rfl, rfl, rfl, rfl, rfl, rfl⟩⟩

theorem SameBlock.after (s : State) (tx : List Byte) : SameBlock s (s.after tx) := by
  constructor <;> simp [State.after]

theorem Via.after {s t : State} {xs : List BusXact} (h : Via s t xs) (tx : List Byte) :
    Via s (t.after tx) (xs ++ [sent tx (t.elapse.answer tx)]) := by
  refine ⟨by simp [h.trace, sent], ?_, h.block.trans (SameBlock.after t tx)⟩
  rw [if_neg (by simp)]
  simp [State.after]

theorem Via.emit {s t : State} {xs : List BusXact} (h : Via s t xs) (bytes : List Byte) : Via s (t.emit bytes) xs :=
  ⟨h.trace, h.bus, h.block.trans ⟨rfl, rfl, rfl, rfl, rfl, rfl, rfl, rfl⟩⟩

theorem Via.setLoop {s t : State} {xs : List BusXact} (h : Via s t xs) (i last : BitVec 20) :
    Via s (t.setLoop i last) xs :=
  ⟨h.trace, h.bus, h.block.trans ⟨rfl, rfl, rfl, rfl, rfl, rfl, rfl, rfl⟩⟩

/-- A response after the transactions `xs`. -/
theorem Via.respond {s t : State} {xs : List BusXact} (h : Via s t xs) (hr : t.rstIn = none) (ok : Bool) (c : Cause)
    (val : BitVec 32) : Answered s (t.respond ok c val) xs ok c val := by
  rw [State.respond_quiet hr]
  exact ⟨h.trace, rfl, rfl, rfl, rfl, h.bus, h.block.trans ⟨rfl, rfl, rfl, rfl, rfl, rfl, rfl, rfl⟩⟩

theorem SameData.trans {s t u : State} (h : SameData s t) (g : SameData t u) : SameData s u :=
  ⟨g.1.trans h.1, g.2.trans h.2, g.3.trans h.3⟩

theorem SameData.start (s : State) : SameData s s.start := ⟨rfl, rfl, rfl⟩

theorem SameData.after {s t : State} (h : SameData s t) (tx : List Byte) : SameData s (t.after tx) :=
  h.trans (by constructor <;> simp [State.after])

theorem SameData.respond {s t : State} (h : SameData s t) (hr : t.rstIn = none) (ok : Bool) (c : Cause)
    (val : BitVec 32) : SameData s (t.respond ok c val) := by
  rw [State.respond_quiet hr]
  exact h.trans ⟨rfl, rfl, rfl⟩

theorem State.respond_dev {t : State} (hr : t.rstIn = none) (ok : Bool) (c : Cause) (val : BitVec 32) :
    (t.respond ok c val).dev = t.dev := by
  rw [State.respond_quiet hr]; rfl

theorem State.respond_resp {t : State} (hr : t.rstIn = none) (ok : Bool) (c : Cause) (val : BitVec 32) :
    (t.respond ok c val).resp = respWord ok c val := by
  rw [State.respond_quiet hr]; rfl

/-- A status read leaves the device as the gap before it left it (R62). -/
theorem State.after_status_dev (s : State) {frame : List Byte}
    (hf : frame = encSr1 ∨ frame = encSr2 ∨ frame = encSr3) : (s.after frame).dev = s.elapse.dev := by
  cases h : s.env
  · rw [State.after_dev, State.xfer_dev_reference h]
    rcases hf with rfl | rfl | rfl <;> simp
  · rw [State.after_dev, State.xfer_dev_unconstrained h, State.elapse_dev_unconstrained h]

/-! ## The sequences, in any environment -/

/-- The byte a read of SR1 gets next. -/
def State.readsSr1 (s : State) : Byte := (s.elapse.answer encSr1).getD 1 0

/-- The byte a read of SR3 gets next. -/
def State.readsSr3 (s : State) : Byte := (s.elapse.answer encSr3).getD 1 0

/-- enter4BSeq (R151). -/
theorem enter4bSeq_run_quiet {s : State} (h : s.rstIn = none) (k : Bool → Cause → Prog) :
    (enter4bSeq k).run s =
      if busyBit s.readsSr1 then (k false .busy).run (s.after encSr1)
      else if adsBit ((s.after encSr1).after encEnter4b).readsSr3 then
        (k true .none).run (((s.after encSr1).after encEnter4b).after encSr3)
      else (k false .verifyFailed).run (((s.after encSr1).after encEnter4b).after encSr3) := by
  rw [enter4bSeq, busyQ_run_quiet h, State.readsSr1]
  split
  · rfl
  · rw [Prog.run_xfer_quiet (by simp [h]), adsQ_run_quiet (by simp [h]), State.readsSr3]
    split <;> rfl

/-- enableWriteSeq (R152). -/
theorem enableWriteSeq_run_quiet {s : State} (h : s.rstIn = none) (k : Bool → Cause → Prog) :
    (enableWriteSeq k).run s =
      if busyBit s.readsSr1 then (k false .busy).run (s.after encSr1)
      else if welBit ((s.after encSr1).after encWren).readsSr1 then
        (k true .none).run (((s.after encSr1).after encWren).after encSr1)
      else (k false .verifyFailed).run (((s.after encSr1).after encWren).after encSr1) := by
  rw [enableWriteSeq, busyQ_run_quiet h, State.readsSr1]
  split
  · rfl
  · rw [Prog.run_xfer_quiet (by simp [h]), welQ_run_quiet (by simp [h]), State.readsSr1]
    split <;> rfl

/-- readIdSeq (R153). -/
theorem readIdSeq_run_quiet {s : State} (h : s.rstIn = none) (k : Bool → Cause → Byte → Prog) :
    (readIdSeq k).run s =
      if busyBit s.readsSr1 then (k false .busy 0).run (s.after encSr1)
      else (k true .none (((s.after encSr1).elapse.answer encId).getD 4 0)).run ((s.after encSr1).after encId) := by
  rw [readIdSeq, busyQ_run_quiet h, State.readsSr1]
  split
  · rfl
  · rw [Prog.run_xfer_quiet (by simp [h])]; rfl

/-- readRawSeq (R154). -/
theorem readRawSeq_run_quiet {s : State} (h : s.rstIn = none) (a : BitVec 32) (n : Nat) (k : Bool → Cause → Prog) :
    (readRawSeq a n k).run s =
      if busyBit s.readsSr1 then (k false .busy).run (s.after encSr1)
      else (k true .none).run
        (((s.after encSr1).after (encRead a n)).emit (((s.after encSr1).elapse.answer (encRead a n)).drop 5)) := by
  rw [readRawSeq, busyQ_run_quiet h, State.readsSr1]
  split
  · rfl
  · rw [Prog.run_xfer_quiet (by simp [h])]; rfl

/-- The sequence of a program or an erase (R150, R155, R156). -/
theorem guardedSeq_run_quiet {s : State} (h : s.rstIn = none) (command : List Byte) (k : Bool → Cause → Prog) :
    (guardedSeq command k).run s =
      if busyBit s.readsSr1 then (k false .busy).run (s.after encSr1)
      else if welBit (s.after encSr1).readsSr1 then
        (k true .none).run (((s.after encSr1).after encSr1).after command)
      else (k false .writeDisabled).run ((s.after encSr1).after encSr1) := by
  rw [guardedSeq, busyQ_run_quiet h, State.readsSr1]
  split
  · rfl
  · rw [welQ_run_quiet (by simp [h]), State.readsSr1]
    split
    · rw [Prog.run_xfer_quiet (by simp [h])]
    · rfl

/-! ## The same against the reference device -/

theorem State.readsSr1_reference {s : State} (h : s.env = .reference) :
    s.readsSr1 = s.elapse.dev.sr1 (drawBit (s.draws + 2)) :=
  answer_sr1_reference (s := s.elapse) h

theorem State.readsSr3_reference {s : State} (h : s.env = .reference) : s.readsSr3 = s.elapse.dev.sr3 :=
  answer_sr3_reference (s := s.elapse) h

/-- The busy check reads BUSY as the gap leaves it. -/
theorem State.busyBit_readsSr1 {s : State} (h : s.env = .reference) : busyBit s.readsSr1 = s.elapse.dev.busy := by
  rw [State.readsSr1_reference h, busyBit_sr1]

/-- On an idle device the write-enable check reads WEL. -/
theorem State.welBit_readsSr1 {s : State} (h : s.env = .reference) (hb : s.elapse.dev.busy = false) :
    welBit s.readsSr1 = s.elapse.dev.wel := by
  rw [State.readsSr1_reference h, welBit_sr1 _ _ hb]

theorem State.adsBit_readsSr3 {s : State} (h : s.env = .reference) : adsBit s.readsSr3 = s.elapse.dev.ads := by
  rw [State.readsSr3_reference h, adsBit_sr3]

/-- After a status read that found the device idle nothing is left for the next gap to do. -/
theorem State.after_status_elapse_dev {s : State} {frame : List Byte}
    (hf : frame = encSr1 ∨ frame = encSr2 ∨ frame = encSr3) (hb : s.elapse.dev.busy = false) :
    (s.after frame).elapse.dev = s.elapse.dev := by
  rw [State.elapse_dev_idle, State.after_status_dev _ hf]
  rw [State.after_status_dev _ hf, hb]

/-- A program or an erase on a device that is busy after the gap: refused after one status read (R150, R202). -/
theorem guardedSeq_run_busy {s : State} (hr : s.rstIn = none) (he : s.env = .reference)
    (hb : s.elapse.dev.busy = true) (command : List Byte) (k : Bool → Cause → Prog) :
    (guardedSeq command k).run s = (k false .busy).run (s.after encSr1) := by
  rw [guardedSeq_run_quiet hr, if_pos (by rw [State.busyBit_readsSr1 he, hb])]

/-- On an idle device without WEL: refused after two status reads (R150, R202). -/
theorem guardedSeq_run_disabled {s : State} (hr : s.rstIn = none) (he : s.env = .reference)
    (hb : s.elapse.dev.busy = false) (hw : s.elapse.dev.wel = false) (command : List Byte) (k : Bool → Cause → Prog) :
    (guardedSeq command k).run s = (k false .writeDisabled).run ((s.after encSr1).after encSr1) := by
  have he1 : (s.after encSr1).elapse.dev = s.elapse.dev := State.after_status_elapse_dev (.inl rfl) hb
  rw [guardedSeq_run_quiet hr, if_neg (by rw [State.busyBit_readsSr1 he, hb]; simp), if_neg]
  rw [State.welBit_readsSr1 (by simpa using he) (by rw [he1, hb]), he1, hw]
  simp

/-- On an idle device with WEL: the command is sent (R155, R156). -/
theorem guardedSeq_run_ready {s : State} (hr : s.rstIn = none) (he : s.env = .reference)
    (hb : s.elapse.dev.busy = false) (hw : s.elapse.dev.wel = true) (command : List Byte) (k : Bool → Cause → Prog) :
    (guardedSeq command k).run s = (k true .none).run (((s.after encSr1).after encSr1).after command) := by
  have he1 : (s.after encSr1).elapse.dev = s.elapse.dev := State.after_status_elapse_dev (.inl rfl) hb
  rw [guardedSeq_run_quiet hr, if_neg (by rw [State.busyBit_readsSr1 he, hb]; simp), if_pos]
  rw [State.welBit_readsSr1 (by simpa using he) (by rw [he1, hb]), he1, hw]

/-- The device acts on the command as the gap before the first check left it (70 R237). -/
theorem State.after_checks_dev {s : State} (he : s.env = .reference) (hb : s.elapse.dev.busy = false)
    (command : List Byte) :
    ∃ n, (((s.after encSr1).after encSr1).after command).dev = s.elapse.dev.act n command := by
  have he1 : (s.after encSr1).elapse.dev = s.elapse.dev := State.after_status_elapse_dev (.inl rfl) hb
  refine ⟨((s.after encSr1).after encSr1).draws + 1 + command.length, ?_⟩
  rw [State.after_dev, State.xfer_dev_reference (by simpa using he),
    State.after_status_elapse_dev (.inl rfl) (by rw [he1, hb]), he1]

/-! ## One round of ERASE_UP_TO_PAGE (R184) -/

/-- What follows a round of the loop with `n` sectors still to come: the next round, the success, or the failure. -/
def eraseNext (last : BitVec 20) : Nat → Bool → Cause → Prog
  | 0, ok, c => if ok then respondPlain true .none else respondPlain false c
  | n + 1, ok, c => if ok then eraseLoop last n else respondPlain false c

/-- Every round sets LOOP_S and LOOP_LAST and runs the erase sequence of its sector. -/
theorem eraseLoop_run (last : BitVec 20) (n : Nat) (s : State) :
    (eraseLoop last n).run s =
      (guardedSeq (encErase (sectorAddress (last - BitVec.ofNat 20 n))) (eraseNext last n)).run
        (s.setLoop (last - BitVec.ofNat 20 n) last) := by
  cases n with
  | zero => rw [BitVec.sub_zero]; rfl
  | succ n => rfl

/-- LOOP_S with `n` sectors still to come. -/
theorem loopS_toNat (last : BitVec 20) (n : Nat) (h : n ≤ last.toNat) :
    (last - BitVec.ofNat 20 n).toNat = last.toNat - n := by
  have := last.isLt
  rw [BitVec.toNat_sub, BitVec.toNat_ofNat, Nat.mod_eq_of_lt (by omega : n < 2 ^ 20)]
  omega

/-- The erase command of a sector number (R171, R129). -/
theorem encErase_sectorAddress (m : BitVec 20) : encErase (sectorAddress m) = eraseFrame m.toNat := by
  have h : sectorAddress m = BitVec.ofNat 32 (m.toNat * 4096) := by
    apply BitVec.eq_of_toNat_eq; simp [sectorAddress, Nat.shiftLeft_eq]
  rw [h]; rfl

end Sys2Proof.Machine
end

