-- ==== Sys2Proof/Laws/Programs.lean ====
section
/-! SUPPORT. What the sequences of all operations have in common: every frame they send is that of a well-formed wire
command, every response is legal, and taking a sequence up at a position gives the rest of it. -/

namespace Sys2Proof.Machine

/-- A frame of a well-formed wire command. -/
def WireFrame (tx : List Byte) : Prop := ∃ i : Instr, i.isWire = true ∧ WellFormed i ∧ encode i = .frame tx

/-- The responses a sequence can end in all satisfy `R`. -/
def Prog.Answers (R : Bool → Cause → BitVec 32 → Prop) : Prog → Prop
  | .xfer _ k => ∀ r, (k r).Answers R
  | .emit _ p => p.Answers R
  | .setLoop _ _ p => p.Answers R
  | .respond ok c val => R ok c val

/-- A success has the cause NONE. -/
def LegalAnswer (ok : Bool) (c : Cause) (_ : BitVec 32) : Prop := ok = true → c = .none

/-! ## Frames and answers of the sequences -/

theorem wireFrame_encSr1 : WireFrame encSr1 := ⟨.encSr1, rfl, rfl, rfl⟩
theorem wireFrame_encSr2 : WireFrame encSr2 := ⟨.encSr2, rfl, rfl, rfl⟩
theorem wireFrame_encSr3 : WireFrame encSr3 := ⟨.encSr3, rfl, rfl, rfl⟩
theorem wireFrame_encEnter4b : WireFrame encEnter4b := ⟨.encEnter4b, rfl, rfl, rfl⟩
theorem wireFrame_encWren : WireFrame encWren := ⟨.encWren, rfl, rfl, rfl⟩
theorem wireFrame_encId : WireFrame encId := ⟨.encId, rfl, rfl, rfl⟩
theorem wireFrame_encErase (a : BitVec 32) : WireFrame (encErase a) := ⟨.encErase a, rfl, rfl, rfl⟩

theorem wireFrame_encRead (a : BitVec 32) (n : BitVec 16) : WireFrame (encRead a n.toNat) :=
  ⟨.encRead a n, rfl, rfl, rfl⟩

theorem wireFrame_encProg (a : BitVec 32) (d : Page) : WireFrame (encProg a d.toList) :=
  ⟨.encProg a d.toList, rfl, by simp [WellFormed, Instr.wellFormed, Config.pageSize], rfl⟩

theorem guardedSeq_sends {command : List Byte} (hc : WireFrame command) {k : Bool → Cause → Prog}
    (hk : ∀ ok c, (k ok c).Sends WireFrame) : (guardedSeq command k).Sends WireFrame := by
  refine ⟨wireFrame_encSr1, fun _ => ?_⟩
  dsimp only
  split
  · exact hk _ _
  · refine ⟨wireFrame_encSr1, fun _ => ?_⟩
    dsimp only
    split
    · exact ⟨hc, fun _ => hk _ _⟩
    · exact hk _ _

theorem enter4bSeq_sends {k : Bool → Cause → Prog} (hk : ∀ ok c, (k ok c).Sends WireFrame) :
    (enter4bSeq k).Sends WireFrame := by
  refine ⟨wireFrame_encSr1, fun _ => ?_⟩
  dsimp only
  split
  · exact hk _ _
  · refine ⟨wireFrame_encEnter4b, fun _ => ⟨wireFrame_encSr3, fun _ => ?_⟩⟩
    dsimp only
    split <;> exact hk _ _

theorem enableWriteSeq_sends {k : Bool → Cause → Prog} (hk : ∀ ok c, (k ok c).Sends WireFrame) :
    (enableWriteSeq k).Sends WireFrame := by
  refine ⟨wireFrame_encSr1, fun _ => ?_⟩
  dsimp only
  split
  · exact hk _ _
  · refine ⟨wireFrame_encWren, fun _ => ⟨wireFrame_encSr1, fun _ => ?_⟩⟩
    dsimp only
    split <;> exact hk _ _

theorem readIdSeq_sends {k : Bool → Cause → Byte → Prog} (hk : ∀ ok c v, (k ok c v).Sends WireFrame) :
    (readIdSeq k).Sends WireFrame := by
  refine ⟨wireFrame_encSr1, fun _ => ?_⟩
  dsimp only
  split
  · exact hk _ _ _
  · exact ⟨wireFrame_encId, fun _ => hk _ _ _⟩

theorem readRawSeq_sends (a : BitVec 32) {n : Nat} (hn : n < 65536) {k : Bool → Cause → Prog}
    (hk : ∀ ok c, (k ok c).Sends WireFrame) : (readRawSeq a n k).Sends WireFrame := by
  refine ⟨wireFrame_encSr1, fun _ => ?_⟩
  dsimp only
  split
  · exact hk _ _
  · refine ⟨?_, fun _ => hk _ _⟩
    have h := wireFrame_encRead a (BitVec.ofNat 16 n)
    rwa [BitVec.toNat_ofNat, Nat.mod_eq_of_lt (by omega)] at h

theorem eraseLoop_sends (last : BitVec 20) (n : Nat) : (eraseLoop last n).Sends WireFrame := by
  induction n with
  | zero =>
    rw [eraseLoop, Prog.Sends]
    refine guardedSeq_sends (wireFrame_encErase _) fun ok c => ?_
    split <;> trivial
  | succ n ih =>
    rw [eraseLoop, Prog.Sends]
    refine guardedSeq_sends (wireFrame_encErase _) fun ok c => ?_
    split
    · exact ih
    · trivial

/-- Every frame an operation sends is that of a well-formed wire command (30_encoding R92). -/
theorem opProg_sends {i : Instr} {d : Page} {p : Prog} (h : opProg i d = some p) : p.Sends WireFrame := by
  cases i <;> simp only [opProg, reduceCtorEq, Option.some.injEq] at h <;> subst h
  · exact enter4bSeq_sends fun _ _ => trivial
  · exact ⟨wireFrame_encSr1, fun _ => trivial⟩
  · exact ⟨wireFrame_encSr2, fun _ => trivial⟩
  · exact ⟨wireFrame_encSr3, fun _ => trivial⟩
  · exact ⟨wireFrame_encSr1, fun _ => trivial⟩
  · exact ⟨wireFrame_encSr1, fun _ => trivial⟩
  · exact ⟨wireFrame_encSr3, fun _ => trivial⟩
  · exact enter4bSeq_sends fun _ _ => trivial
  · exact enableWriteSeq_sends fun _ _ => trivial
  · exact readIdSeq_sends fun _ _ _ => trivial
  · exact readIdSeq_sends fun _ _ _ => trivial
  · exact readRawSeq_sends _ (BitVec.isLt _) fun _ _ => trivial
  · exact guardedSeq_sends (wireFrame_encProg _ _) fun _ _ => trivial
  · exact guardedSeq_sends (wireFrame_encErase _) fun _ _ => trivial
  · exact readRawSeq_sends _ (by decide) fun _ _ => trivial
  · exact guardedSeq_sends (wireFrame_encProg _ _) fun _ _ => trivial
  · exact guardedSeq_sends (wireFrame_encErase _) fun _ _ => trivial
  · exact eraseLoop_sends _ _
  · trivial
  · trivial
  · trivial

theorem guardedSeq_answers {R : Bool → Cause → BitVec 32 → Prop} (command : List Byte) {k : Bool → Cause → Prog}
    (hk : ∀ ok c, LegalAnswer ok c 0 → (k ok c).Answers R) : (guardedSeq command k).Answers R := by
  intro _
  dsimp only
  split
  · exact hk _ _ (by simp [LegalAnswer])
  · intro _
    dsimp only
    split
    · exact fun _ => hk _ _ (by simp [LegalAnswer])
    · exact hk _ _ (by simp [LegalAnswer])

theorem enter4bSeq_answers {R : Bool → Cause → BitVec 32 → Prop} {k : Bool → Cause → Prog}
    (hk : ∀ ok c, LegalAnswer ok c 0 → (k ok c).Answers R) : (enter4bSeq k).Answers R := by
  intro _
  dsimp only
  split
  · exact hk _ _ (by simp [LegalAnswer])
  · intro _ _
    dsimp only
    split <;> exact hk _ _ (by simp [LegalAnswer])

theorem enableWriteSeq_answers {R : Bool → Cause → BitVec 32 → Prop} {k : Bool → Cause → Prog}
    (hk : ∀ ok c, LegalAnswer ok c 0 → (k ok c).Answers R) : (enableWriteSeq k).Answers R := by
  intro _
  dsimp only
  split
  · exact hk _ _ (by simp [LegalAnswer])
  · intro _ _
    dsimp only
    split <;> exact hk _ _ (by simp [LegalAnswer])

theorem readIdSeq_answers {R : Bool → Cause → BitVec 32 → Prop} {k : Bool → Cause → Byte → Prog}
    (hk : ∀ ok c v, LegalAnswer ok c 0 → (k ok c v).Answers R) : (readIdSeq k).Answers R := by
  intro _
  dsimp only
  split
  · exact hk _ _ _ (by simp [LegalAnswer])
  · exact fun _ => hk _ _ _ (by simp [LegalAnswer])

theorem readRawSeq_answers {R : Bool → Cause → BitVec 32 → Prop} (a : BitVec 32) (n : Nat) {k : Bool → Cause → Prog}
    (hk : ∀ ok c, LegalAnswer ok c 0 → (k ok c).Answers R) : (readRawSeq a n k).Answers R := by
  intro _
  dsimp only
  split
  · exact hk _ _ (by simp [LegalAnswer])
  · exact fun _ => hk _ _ (by simp [LegalAnswer])

theorem eraseLoop_answers (last : BitVec 20) (n : Nat) : (eraseLoop last n).Answers LegalAnswer := by
  induction n with
  | zero =>
    rw [eraseLoop, Prog.Answers]
    refine guardedSeq_answers _ fun ok c h => ?_
    split
    · exact fun _ => rfl
    · exact fun h => absurd h (by simp)
  | succ n ih =>
    rw [eraseLoop, Prog.Answers]
    refine guardedSeq_answers _ fun ok c h => ?_
    split
    · exact ih
    · exact fun h => absurd h (by simp)

/-- Every response of an operation is legal (60_exceptions R201). -/
theorem opProg_answers {i : Instr} {d : Page} {p : Prog} (h : opProg i d = some p) : p.Answers LegalAnswer := by
  cases i <;> simp only [opProg, reduceCtorEq, Option.some.injEq] at h <;> subst h
  · exact enter4bSeq_answers fun _ _ h => h
  · exact fun _ _ => rfl
  · exact fun _ _ => rfl
  · exact fun _ _ => rfl
  · exact fun _ _ => rfl
  · exact fun _ _ => rfl
  · exact fun _ _ => rfl
  · exact enter4bSeq_answers fun _ _ h => h
  · exact enableWriteSeq_answers fun _ _ h => h
  · exact readIdSeq_answers fun _ _ _ h => h
  · exact readIdSeq_answers fun _ _ _ _ _ => rfl
  · exact readRawSeq_answers _ _ fun _ _ h => h
  · exact guardedSeq_answers _ fun _ _ h => h
  · exact guardedSeq_answers _ fun _ _ h => h
  · exact readRawSeq_answers _ _ fun _ _ h => h
  · exact guardedSeq_answers _ fun _ _ h => h
  · exact guardedSeq_answers _ fun _ _ h => h
  · exact eraseLoop_answers _ _
  · exact fun _ => rfl
  · exact fun _ => rfl
  · exact fun _ => rfl

/-! ## Positions -/

/-- What is sent at a position and after it is sent by the sequence. -/
theorem Prog.position_sends {Q : List Byte → Prop} {p : Prog} (hp : p.Sends Q) {as : List (List Byte)}
    {tx : List Byte} {k : List Byte → Prog} (h : p.position as = some (tx, k)) : Q tx ∧ ∀ r, (k r).Sends Q := by
  induction p generalizing as with
  | xfer tx' k' ih =>
    cases as with
    | nil =>
      simp only [Prog.position, Option.some.injEq, Prod.mk.injEq] at h
      obtain ⟨rfl, rfl⟩ := h
      exact hp
    | cons a rest => exact ih a (hp.2 a) h
  | emit bytes p ih => exact ih hp h
  | setLoop i last p ih => exact ih hp h
  | respond ok c val => simp [Prog.position] at h

/-- What can be answered after a position can be answered by the sequence. -/
theorem Prog.position_answers {R : Bool → Cause → BitVec 32 → Prop} {p : Prog} (hp : p.Answers R)
    {as : List (List Byte)} {tx : List Byte} {k : List Byte → Prog} (h : p.position as = some (tx, k)) (r : List Byte) :
    (k r).Answers R := by
  induction p generalizing as with
  | xfer tx' k' ih =>
    cases as with
    | nil =>
      simp only [Prog.position, Option.some.injEq, Prod.mk.injEq] at h
      obtain ⟨rfl, rfl⟩ := h
      exact hp r
    | cons a rest => exact ih a (hp a) h
  | emit bytes p ih => exact ih hp h
  | setLoop i last p ih => exact ih hp h
  | respond ok c val => simp [Prog.position] at h

/-- One more answer leads from a position to the next one of what follows it. -/
theorem Prog.position_append {p : Prog} {as : List (List Byte)} {tx : List Byte} {k : List Byte → Prog}
    (h : p.position as = some (tx, k)) (a : List Byte) (rest : List (List Byte)) :
    p.position (as ++ a :: rest) = (k a).position rest := by
  induction p generalizing as with
  | xfer tx' k' ih =>
    cases as with
    | nil =>
      simp only [Prog.position, Option.some.injEq, Prod.mk.injEq] at h
      obtain ⟨rfl, rfl⟩ := h
      rfl
    | cons b bs => exact ih b h
  | emit bytes p ih => exact ih h
  | setLoop i last p ih => exact ih h
  | respond ok c val => simp [Prog.position] at h

end Sys2Proof.Machine
end

