-- ==== Sys2Proof/Tests/Slice0.lean ====
section
/-! SUPPORT. Tests. The expected results are the vectors of spec/95_test_vectors.md (their numbers are given) or hand
calculation from the rule named. The last part gives, for every obligation with hypotheses, a state and operands that
meet them together. -/

namespace Sys2Proof.Tests

open Sys2Proof Sys2Proof.Machine

/-! ## Small states -/

/-- A device of 16 MiB that is idle, write-enabled and in 4-byte mode, with identity 0x18 and no other status bit. -/
def device : Device :=
  { busy := false, wel := true, ads := true, sr1Other := 0, sr2 := 0, sr3Other := 0
    array := { epoch := 0, cells := [] }, pending := .none, busyLeft := 0, id := 0x18, lastAddr := 0x00FFFFFF#32
    programModel := .and, unaligned := .havoc, mode3b := .havoc, welBusy := .keep }

/-- The same device in a busy period that has `n` gaps to go. -/
def busyDevice (n : Nat) (p : Pending) : Device := { device with busy := true, busyLeft := n, pending := p }

/-- The machine at rest with a given device. -/
def withDevice (d : Device) : State := { State.reset with dev := d }

/-- The machine at rest, its environment answering the given MISO bytes. -/
def answering (bytes : List Byte) : State := { State.reset with env := .unconstrained, misoIn := bytes }

/-- The machine at rest with given moves of the host. -/
def asked (moves : List HostEvent) : State := { withDevice device with host := moves }

/-- Whether an outcome is a next state that a check accepts. -/
def gives (o : Host.Outcome State Fault Refusal) (check : State → Bool) : Bool :=
  match o with
  | .next t => check t
  | .fault _ => false
  | .refused _ => false

/-- The data of the vectors, D[k] = k. -/
def countUp : List Byte := (List.range 256).map (BitVec.ofNat 8)

/-- The same machine with every byte of WDATA 0xA5. -/
def withData (s : State) : State := { s with wdata := Vector.replicate 256 0xA5 }

/-- MISO bytes with which the erase of one sector passes its checks. -/
def passes : List Byte := [0x00, 0x02, 0x00, 0x02, 0x00, 0x00, 0x00, 0x00, 0x00]

/-- The frames of the erase of one of the first 16 sectors. -/
def eraseFrames (sector : Byte) : List (List Byte) :=
  [[0x05, 0x00], [0x05, 0x00], [0x21, 0x00, 0x00, sector <<< 4, 0x00]]

/-- The frames sent, the oldest first. -/
def frames (t : State) : List (List Byte) := t.trace.reverse.map (fun x => x.tx)

/-! ## Well-formedness -/

/-- R128: a page program carries exactly 256 bytes; a term with 255 or 257 is refused by the check, by the decoder (as
the frame it would be) and by its meaning. -/
theorem test_wellformed_prog :
    Instr.wellFormed (.encProg 0 countUp) = true ∧ Instr.wellFormed (.encProg 0 countUp.tail) = false ∧
    Instr.wellFormed (.encProg 0 (0 :: countUp)) = false ∧
    decode (.frame (encProg 0 countUp.tail)) = .error .badLength := by
  decide +kernel

theorem test_wellformed_refused :
    (match exec (.encProg 0 countUp.tail) State.reset with
      | .refused .malformedFrame => true
      | _ => false) = true := by
  decide +kernel

/-! ## Decoding, from the encodings of 30_encoding written out -/

/-- V1.1 to V1.6, V1.8, V1.9, V1.13, V1.14. -/
theorem test_decode_frames :
    decode (.frame [0x05, 0x00]) = .ok .encSr1 ∧ decode (.frame [0x35, 0x00]) = .ok .encSr2 ∧
    decode (.frame [0x15, 0x00]) = .ok .encSr3 ∧ decode (.frame [0xB7]) = .ok .encEnter4b ∧
    decode (.frame [0x06]) = .ok .encWren ∧ decode (.frame [0xAB, 0x00, 0x00, 0x00, 0x00]) = .ok .encId ∧
    decode (.frame [0x13, 0x00, 0x00, 0x00, 0x00]) = .ok (.encRead 0 0) ∧
    decode (.frame [0x13, 0xFF, 0xFF, 0xFF, 0xFF, 0x00]) = .ok (.encRead 0xFFFFFFFF 1) ∧
    decode (.frame [0x21, 0x00, 0x00, 0x12, 0x34]) = .ok (.encErase 0x00001234) ∧
    decode (.frame [0x21, 0xFF, 0xFF, 0xF0, 0x00]) = .ok (.encErase 0xFFFFF000) := by
  decide

/-- V1.11: the page program frame of 261 bytes. -/
theorem test_decode_prog :
    decode (.frame ([0x12, 0x00, 0x00, 0x01, 0x00] ++ countUp)) = .ok (.encProg 0x00000100 countUp) := by
  decide +kernel

/-- R92, R93, R90: any other first byte, any other length and any byte in a FILL position that is not FILL. -/
theorem test_reject_frames :
    decode (.frame []) = .error .emptyFrame ∧ decode (.frame [0x9F]) = .error .unknownOpcode ∧
    decode (.frame [0x05]) = .error .badLength ∧ decode (.frame [0xB7, 0x00]) = .error .badLength ∧
    decode (.frame [0x21, 0x00, 0x00, 0x12]) = .error .badLength ∧
    decode (.frame [0x13, 0x00, 0x00]) = .error .badLength ∧ decode (.frame [0x05, 0x01]) = .error .badFill := by
  decide

/-- R102, R103 (OP, WHICH, LEN and ARG written out), and the words of R108 and of the vectors. -/
theorem test_decode_requests :
    decode (.req 0x0000000000000001) = .ok .begin ∧ decode (.req 0x0000000000000022) = .ok .readSr1 ∧
    decode (.req 0x0000000000000042) = .ok .readSr2 ∧ decode (.req 0x0000000000000062) = .ok .readSr3 ∧
    decode (.req 0x0000000000000003) = .ok .busy ∧ decode (.req 0x0000000000000004) = .ok .writeEnabled ∧
    decode (.req 0x0000000000000005) = .ok .addrMode4b ∧ decode (.req 0x0000000000000006) = .ok .enter4b ∧
    decode (.req 0x0000000000000007) = .ok .enableWrite ∧ decode (.req 0x0000000000000008) = .ok .readId ∧
    decode (.req 0x0000000000000009) = .ok .works := by
  decide

theorem test_decode_addressed :
    decode (.req 0x000010000004000A) = .ok (.readRaw 0x00001000 4) ∧
    decode (.req 0x000001000000000B) = .ok (.programPage 0x00000100) ∧
    decode (.req 0x000012340000000C) = .ok (.eraseSector 0x00001234) ∧
    decode (.req 0x000000100000000D) = .ok (.readPage 16) ∧
    decode (.req 0x00FFFFFF0000000E) = .ok (.writePage 0xFFFFFF) ∧
    decode (.req 0x000FFFFF0000000F) = .ok (.sectorErase 0xFFFFF) ∧
    decode (.req 0x0000001F00000010) = .ok (.eraseUpToPage 31) ∧
    decode (.req 0x00FFFFFF00000011) = .ok (.pageAddr 0xFFFFFF) ∧
    decode (.req 0x000FFFFF00000012) = .ok (.sectorAddr 0xFFFFF) ∧
    decode (.req 0x0000001F00000013) = .ok (.sectorOfPage 31) := by
  decide

/-- V7.1 to V7.9, V4.12, V4.15: each clause of R104, at the edge of its field. -/
theorem test_illegal_requests :
    decode (.req 0x0000000000000000) = .error .reservedOp ∧ decode (.req 0x0000000000000014) = .error .reservedOp ∧
    decode (.req 0x000000000000001F) = .error .reservedOp ∧ decode (.req 0x0000000000000002) = .error .whichZero ∧
    decode (.req 0x0000000000000023) = .error .whichNonzero ∧
    decode (.req 0x0000000000000081) = .error .reservedBits ∧
    decode (.req 0x0000000000008001) = .error .reservedBits ∧
    decode (.req 0x0000000100000003) = .error .argNonzero ∧
    decode (.req 0x000000000010000B) = .error .lenNonzero ∧ decode (.req 0x010000000000000D) = .error .pageTooWide ∧
    decode (.req 0x0100000000000011) = .error .pageTooWide ∧
    decode (.req 0x0010000000000012) = .error .sectorTooWide := by
  decide

/-- V7.10: a READ_RAW word with every operand bit set is legal. -/
theorem test_legal_extreme : decode (.req 0xFFFFFFFFFFFF000A) = .ok (.readRaw 0xFFFFFFFF 0xFFFF) := by decide

/-- The words of R108. -/
theorem test_encode_examples :
    encode .begin = .req 0x0000000000000001 ∧ encode .readSr3 = .req 0x0000000000000062 ∧
    encode (.readRaw 0x00001000 256) = .req 0x000010000100000A ∧ encode (.writePage 16) = .req 0x000000100000000E ∧
    encode (.sectorErase 1) = .req 0x000000010000000F ∧ encode (.eraseUpToPage 31) = .req 0x0000001F00000010 := by
  decide

/-- V1.15: the serial stream of ENC_ERASE(0x80000001). -/
theorem test_stream_bits :
    streamBits (encErase 0x80000001) =
      [false, false, true, false, false, false, false, true] ++ [true] ++ List.replicate 30 false ++ [true] := by
  decide

/-! ## Wire commands: the bytes on MOSI and the bytes used of MISO -/

/-- V1.1, R121: the result is rx[1]. -/
theorem test_encSr1 :
    gives (exec .encSr1 (answering [0xEE, 0x03])) (fun t =>
      frames t == [[0x05, 0x00]] && t.result == [0x03] &&
      t.csN && !t.sck) = true := by
  decide

/-- V1.2, R122. -/
theorem test_encSr2 :
    gives (exec .encSr2 (answering [0xEE, 0x02])) (fun t =>
      frames t == [[0x35, 0x00]] && t.result == [0x02] &&
      t.csN && !t.sck) = true := by
  decide

/-- V1.3, R123. -/
theorem test_encSr3 :
    gives (exec .encSr3 (answering [0xEE, 0x61])) (fun t =>
      frames t == [[0x15, 0x00]] && t.result == [0x61] &&
      t.csN && !t.sck) = true := by
  decide

/-- V1.4, R124. -/
theorem test_encEnter4b :
    gives (exec .encEnter4b (answering [0xEE])) (fun t =>
      frames t == [[0xB7]] && t.result == [] &&
      t.csN && !t.sck) = true := by
  decide

/-- V1.5, R125. -/
theorem test_encWren :
    gives (exec .encWren (answering [0xEE])) (fun t =>
      frames t == [[0x06]] && t.result == [] &&
      t.csN && !t.sck) = true := by
  decide

/-- V1.6, R126: the result is rx[4]. -/
theorem test_encId :
    gives (exec .encId (answering [0x01, 0x02, 0x03, 0x04, 0x18])) (fun t =>
      frames t == [[0xAB, 0x00, 0x00, 0x00, 0x00]] && t.result == [0x18] &&
      t.csN && !t.sck) = true := by
  decide

/-- V1.7, R127. -/
theorem test_encRead :
    gives (exec (.encRead 0x12345678 2) (answering [0x01, 0x02, 0x03, 0x04, 0x05, 0x77, 0x88])) (fun t =>
      frames t == [[0x13, 0x12, 0x34, 0x56, 0x78, 0x00, 0x00]] && t.result == [0x77, 0x88] &&
      t.csN && !t.sck) = true := by
  decide

/-- V1.12, R128: an unaligned address is sent unchanged. -/
theorem test_encProg :
    gives (exec (.encProg 0x000001F0 countUp) (answering [])) (fun t =>
      frames t == [[0x12, 0x00, 0x00, 0x01, 0xF0] ++ countUp] && t.result == []) = true := by
  decide +kernel

/-- V1.13, R129. -/
theorem test_encErase :
    gives (exec (.encErase 0x00001234) (answering [])) (fun t =>
      frames t == [[0x21, 0x00, 0x00, 0x12, 0x34]] && t.result == [] &&
      t.csN && !t.sck) = true := by
  decide

/-! ## The device (V8.1 to V8.10) -/

/-- V8.7: write enable is ignored while busy; V8.8: an erase is ignored without WEL. -/
theorem test_device_ignores :
    (busyDevice 1 .none).act 9 encWren = busyDevice 1 .none ∧
    { device with wel := false }.act 9 (encErase 0) = { device with wel := false } := by
  decide

/-- V8.1 and V8.2: the AND program model, and either model on an erased byte. -/
theorem test_device_program_byte (x : Byte) :
    programmedByte .and 0xF0 0x3C x = 0x30 ∧ programmedByte .and 0xFF 0x3C x = 0x3C ∧
    programmedByte .havoc 0xFF 0x3C x = 0x3C := by
  simp [programmedByte]

/-- V8.5: D[0x10] of an unaligned program at 0x1F0 goes to 0x100 under WRAP. -/
theorem test_device_wrap :
    programTarget 0x1F0 0 = 0x1F0 ∧ programTarget 0x1F0 0x0F = 0x1FF ∧ programTarget 0x1F0 0x10 = 0x100 := by
  decide

/-- V8.6: under HAVOC the bytes 0x100 to 0x2FF become any value. -/
theorem test_device_unaligned :
    device.programPending 0x1F0 countUp = .havoc (.span 0x100 0x200) ∧
    { device with unaligned := .wrap }.programPending 0x1F0 countUp = .program 0x1F0 countUp := by
  decide +kernel

/-- R73, R74: a target beyond the capacity and 3-byte mode havoc the whole array; the last page and sector of the device
are within it. -/
theorem test_device_edges :
    device.programPending 0x01000000 countUp = .havoc .whole ∧
    device.programPending 0x00FFFF00 countUp = .program 0x00FFFF00 countUp ∧
    device.erasePending 0x01000000 = .havoc .whole ∧ device.erasePending 0x00FFFFFF = .erase 0xFFF ∧
    { device with ads := false }.erasePending 0 = .havoc .whole ∧
    { device with ads := false, mode3b := .same }.erasePending 0 = .erase 0 := by
  decide +kernel

/-! ## Host operations against an environment that answers given bytes -/

/-- V2.11. -/
theorem test_readSr1 :
    gives (exec .readSr1
      (answering [0x00, 0xA5])) (fun t =>
      frames t == [[0x05, 0x00]] &&
      t.resp == 0x000000A500000001 && t.respValid && t.seqState == .idle) = true := by
  decide

/-- V2.12. -/
theorem test_readSr2 :
    gives (exec .readSr2
      (answering [0x00, 0x02])) (fun t =>
      frames t == [[0x35, 0x00]] &&
      t.resp == 0x0000000200000001 && t.respValid && t.seqState == .idle) = true := by
  decide

/-- V2.13. -/
theorem test_readSr3 :
    gives (exec .readSr3
      (answering [0x00, 0x01])) (fun t =>
      frames t == [[0x15, 0x00]] &&
      t.resp == 0x0000000100000001 && t.respValid && t.seqState == .idle) = true := by
  decide

/-- V2.15. -/
theorem test_busy :
    gives (exec .busy
      (answering [0x00, 0x01])) (fun t =>
      frames t == [[0x05, 0x00]] &&
      t.resp == 0x0000000100000001 && t.respValid && t.seqState == .idle) = true := by
  decide

/-- V2.5. -/
theorem test_busy_other_bits :
    gives (exec .busy
      (answering [0x00, 0xFC])) (fun t =>
      frames t == [[0x05, 0x00]] &&
      t.resp == 0x0000000000000001 && t.respValid && t.seqState == .idle) = true := by
  decide

/-- V2.17. -/
theorem test_writeEnabled :
    gives (exec .writeEnabled
      (answering [0x00, 0x02])) (fun t =>
      frames t == [[0x05, 0x00]] &&
      t.resp == 0x0000000100000001 && t.respValid && t.seqState == .idle) = true := by
  decide

/-- V2.18. -/
theorem test_writeEnabled_busy :
    gives (exec .writeEnabled
      (answering [0x00, 0x01])) (fun t =>
      frames t == [[0x05, 0x00]] &&
      t.resp == 0x0000000000000001 && t.respValid && t.seqState == .idle) = true := by
  decide

/-- V2.19. -/
theorem test_addrMode4b :
    gives (exec .addrMode4b
      (answering [0x00, 0xFE])) (fun t =>
      frames t == [[0x15, 0x00]] &&
      t.resp == 0x0000000000000001 && t.respValid && t.seqState == .idle) = true := by
  decide

/-- V2.10. -/
theorem test_addrMode4b_set :
    gives (exec .addrMode4b
      (answering [0x00, 0x61])) (fun t =>
      frames t == [[0x15, 0x00]] &&
      t.resp == 0x0000000100000001 && t.respValid && t.seqState == .idle) = true := by
  decide

/-- V3.2. -/
theorem test_enter4b_unstuck :
    gives (exec .enter4b
      (answering [0x00, 0x00, 0x00, 0x00, 0x00])) (fun t =>
      frames t == [[0x05, 0x00], [0xB7], [0x15, 0x00]] &&
      t.resp == 0x0000000000000030 && t.respValid && t.seqState == .idle) = true := by
  decide

/-- V3.3. -/
theorem test_enter4b :
    gives (exec .enter4b
      (answering [0x00, 0x00, 0x00, 0x00, 0x01])) (fun t =>
      frames t == [[0x05, 0x00], [0xB7], [0x15, 0x00]] &&
      t.resp == 0x0000000000000001 && t.respValid && t.seqState == .idle) = true := by
  decide

/-- V3.5. -/
theorem test_enableWrite_busy :
    gives (exec .enableWrite
      (answering [0x00, 0x03])) (fun t =>
      frames t == [[0x05, 0x00]] &&
      t.resp == 0x0000000000000010 && t.respValid && t.seqState == .idle) = true := by
  decide

/-- V3.7. -/
theorem test_enableWrite :
    gives (exec .enableWrite
      (answering [0x00, 0x00, 0x00, 0x00, 0x02])) (fun t =>
      frames t == [[0x05, 0x00], [0x06], [0x05, 0x00]] &&
      t.resp == 0x0000000000000001 && t.respValid && t.seqState == .idle) = true := by
  decide

/-- V3.8. -/
theorem test_readId_busy :
    gives (exec .readId
      (answering [0x00, 0x01])) (fun t =>
      frames t == [[0x05, 0x00]] &&
      t.resp == 0x0000000000000010 && t.respValid && t.seqState == .idle) = true := by
  decide

/-- V3.9. -/
theorem test_readId :
    gives (exec .readId
      (answering [0x00, 0x00, 0x00, 0x00, 0x00, 0x00, 0xEF])) (fun t =>
      frames t == [[0x05, 0x00], [0xAB, 0x00, 0x00, 0x00, 0x00]] &&
      t.resp == 0x000000EF00000001 && t.respValid && t.seqState == .idle) = true := by
  decide

/-- V3.10. -/
theorem test_readRaw_busy :
    gives (exec (.readRaw 0x00001000 4)
      (answering [0x00, 0x01])) (fun t =>
      frames t == [[0x05, 0x00]] &&
      t.resp == 0x0000000000000010 && t.respValid && t.seqState == .idle &&
      t.rdata == []) = true := by
  decide

/-- V3.11. -/
theorem test_readRaw :
    gives (exec (.readRaw 0x00001000 4)
      (answering [0x00, 0x00, 0x00, 0x00, 0x00, 0x00, 0x00, 0x11, 0x22, 0x33, 0x44])) (fun t =>
      frames t == [[0x05, 0x00], [0x13, 0x00, 0x00, 0x10, 0x00, 0x00, 0x00, 0x00, 0x00]] &&
      t.resp == 0x0000000000000001 && t.respValid && t.seqState == .idle &&
      t.rdata == [0x11, 0x22, 0x33, 0x44]) = true := by
  decide

/-- V3.14. -/
theorem test_programPage_disabled :
    gives (exec (.programPage 0x00000100)
      (answering [0x00, 0x00, 0x00, 0x00])) (fun t =>
      frames t == [[0x05, 0x00], [0x05, 0x00]] &&
      t.resp == 0x0000000000000020 && t.respValid && t.seqState == .idle) = true := by
  decide

/-- V3.15, with WDATA all 0xA5. -/
theorem test_programPage :
    gives (exec (.programPage 0x00000100)
      (withData (answering [0x00, 0x02, 0x00, 0x02]))) (fun t =>
      frames t == [[0x05, 0x00], [0x05, 0x00], [0x12, 0x00, 0x00, 0x01, 0x00] ++ List.replicate 256 0xA5] &&
      t.resp == 0x0000000000000001 && t.respValid && t.seqState == .idle) = true := by
  decide +kernel

/-- V3.16. -/
theorem test_eraseSector :
    gives (exec (.eraseSector 0x00001234)
      (answering [0x00, 0x02, 0x00, 0x02])) (fun t =>
      frames t == [[0x05, 0x00], [0x05, 0x00], [0x21, 0x00, 0x00, 0x12, 0x34]] &&
      t.resp == 0x0000000000000001 && t.respValid && t.seqState == .idle) = true := by
  decide

/-- V3.17. -/
theorem test_eraseSector_disabled :
    gives (exec (.eraseSector 0x00001234)
      (answering [0x00, 0x00, 0x00, 0x00])) (fun t =>
      frames t == [[0x05, 0x00], [0x05, 0x00]] &&
      t.resp == 0x0000000000000020 && t.respValid && t.seqState == .idle) = true := by
  decide

/-- V5.1. -/
theorem test_readPage_busy :
    gives (exec (.readPage 0)
      (answering [0x00, 0x01])) (fun t =>
      frames t == [[0x05, 0x00]] &&
      t.resp == 0x0000000000000010 && t.respValid && t.seqState == .idle &&
      t.rdata == []) = true := by
  decide

/-- V5.3, V7.11: WEL is never read. -/
theorem test_writePage_busy :
    gives (exec (.writePage 16)
      (answering [0x00, 0x03])) (fun t =>
      frames t == [[0x05, 0x00]] &&
      t.resp == 0x0000000000000010 && t.respValid && t.seqState == .idle) = true := by
  decide

/-- V5.5, with WDATA all 0xA5. -/
theorem test_writePage :
    gives (exec (.writePage 0xFFFFFF)
      (withData (answering [0x00, 0x02, 0x00, 0x02]))) (fun t =>
      frames t == [[0x05, 0x00], [0x05, 0x00], [0x12, 0xFF, 0xFF, 0xFF, 0x00] ++ List.replicate 256 0xA5] &&
      t.resp == 0x0000000000000001 && t.respValid && t.seqState == .idle) = true := by
  decide +kernel

/-- V5.6. -/
theorem test_sectorErase_busy :
    gives (exec (.sectorErase 1)
      (answering [0x00, 0x01])) (fun t =>
      frames t == [[0x05, 0x00]] &&
      t.resp == 0x0000000000000010 && t.respValid && t.seqState == .idle) = true := by
  decide

/-- V5.8. -/
theorem test_sectorErase :
    gives (exec (.sectorErase 0xFFFFF)
      (answering [0x00, 0x02, 0x00, 0x02])) (fun t =>
      frames t == [[0x05, 0x00], [0x05, 0x00], [0x21, 0xFF, 0xFF, 0xF0, 0x00]] &&
      t.resp == 0x0000000000000001 && t.respValid && t.seqState == .idle) = true := by
  decide

/-- V6.1. -/
theorem test_begin_busy :
    gives (exec .begin
      (answering [0x00, 0x01])) (fun t =>
      frames t == [[0x05, 0x00]] &&
      t.resp == 0x0000000000000010 && t.respValid && t.seqState == .idle) = true := by
  decide

/-- V6.3. -/
theorem test_begin :
    gives (exec .begin
      (answering [0x00, 0x00, 0x00, 0x00, 0x01])) (fun t =>
      frames t == [[0x05, 0x00], [0xB7], [0x15, 0x00]] &&
      t.resp == 0x0000000000000001 && t.respValid && t.seqState == .idle) = true := by
  decide

/-- V6.4. -/
theorem test_works :
    gives (exec .works
      (answering [0x00, 0x00, 0x00, 0x00, 0x00, 0x00, 0x18])) (fun t =>
      frames t == [[0x05, 0x00], [0xAB, 0x00, 0x00, 0x00, 0x00]] &&
      t.resp == 0x0000000100000001 && t.respValid && t.seqState == .idle) = true := by
  decide

/-- V6.5. -/
theorem test_works_other :
    gives (exec .works
      (answering [0x00, 0x00, 0x00, 0x00, 0x00, 0x00, 0x17])) (fun t =>
      frames t == [[0x05, 0x00], [0xAB, 0x00, 0x00, 0x00, 0x00]] &&
      t.resp == 0x0000000000000001 && t.respValid && t.seqState == .idle) = true := by
  decide

/-- V5.10: three sectors, every erase accepted. -/
theorem test_eraseUpToPage :
    gives (exec (.eraseUpToPage 47) (answering (passes ++ passes ++ passes))) (fun t =>
      frames t == eraseFrames 0 ++ eraseFrames 1 ++ eraseFrames 2 && t.resp == 1 && t.loopLast == 2) = true := by
  decide

/-- V5.11: the third erase fails its write-enable check. -/
theorem test_eraseUpToPage_stops :
    gives (exec (.eraseUpToPage 47) (answering (passes ++ passes ++ [0x00, 0x00, 0x00, 0x00]))) (fun t =>
      frames t == eraseFrames 0 ++ eraseFrames 1 ++ [[0x05, 0x00], [0x05, 0x00]] && t.resp == 0x20) = true := by
  decide

/-- V4.10. -/
theorem test_pageAddr :
    gives (exec (.pageAddr 17)
      (answering [])) (fun t =>
      frames t == [] &&
      t.resp == 0x0000110000000001 && t.respValid && t.seqState == .idle) = true := by
  decide

/-- V4.11. -/
theorem test_pageAddr_top :
    gives (exec (.pageAddr 0xFFFFFF)
      (answering [])) (fun t =>
      frames t == [] &&
      t.resp == 0xFFFFFF0000000001 && t.respValid && t.seqState == .idle) = true := by
  decide

/-- V4.13. -/
theorem test_sectorAddr :
    gives (exec (.sectorAddr 3)
      (answering [])) (fun t =>
      frames t == [] &&
      t.resp == 0x0000300000000001 && t.respValid && t.seqState == .idle) = true := by
  decide

/-- V4.14. -/
theorem test_sectorAddr_top :
    gives (exec (.sectorAddr 0xFFFFF)
      (answering [])) (fun t =>
      frames t == [] &&
      t.resp == 0xFFFFF00000000001 && t.respValid && t.seqState == .idle) = true := by
  decide

/-- V4.17. -/
theorem test_sectorOfPage :
    gives (exec (.sectorOfPage 31)
      (answering [])) (fun t =>
      frames t == [] &&
      t.resp == 0x0000000100000001 && t.respValid && t.seqState == .idle) = true := by
  decide

/-- V4.18. -/
theorem test_sectorOfPage_top :
    gives (exec (.sectorOfPage 0xFFFFFF)
      (answering [])) (fun t =>
      frames t == [] &&
      t.resp == 0x000FFFFF00000001 && t.respValid && t.seqState == .idle) = true := by
  decide

/-! ## Steps of the machine -/

/-- V5.2: READ_PAGE 0 of an idle device sends one frame with 256 bytes of FILL and delivers 256 bytes. -/
theorem test_readPage :
    gives (step (asked [.request 0x000000000000000D none])) (fun t =>
      frames t == [[0x05, 0x00], [0x13, 0x00, 0x00, 0x00, 0x00] ++ List.replicate 256 0x00] && t.resp == 1 &&
      t.rdata.length == 256) = true := by
  decide +kernel

/-- V7.12: an illegal word is answered ILLEGAL without a transaction even while the device is busy. -/
theorem test_step_illegal :
    gives (step { withDevice (busyDevice 3 .none) with host := [.request 0x000012340001000C none] }) (fun t =>
      t.resp == 0x40 && t.respValid && t.trace.isEmpty && t.host.isEmpty) = true := by
  decide

/-- V5.9 against the reference device: the erase is accepted and the device is busy with it. -/
theorem test_step_erase :
    gives (step (asked [.request 0x0000000F00000010 none])) (fun t =>
      t.resp == 1 && t.dev.busy && t.dev.pending == .erase 0) = true := by
  decide

/-- R105: a program request without its data is not accepted; with it, it is. -/
theorem test_step_data :
    gives (step (asked [.request 0x000000100000000E none])) (fun t => !t.respValid && t.host.length == 1) = true ∧
    gives (step (asked [.request 0x000000100000000E (some zeroPage)])) (fun t =>
      t.resp == 1 && t.dev.pending == .program 0x1000 zeroPage.toList) = true := by
  decide +kernel

/-- R230, R231: RST between transactions, and RST 20 clock cycles into the frame of an erase. -/
theorem test_step_reset :
    gives (step { asked [] with rstIn := some ⟨0, 0, 2⟩, rdata := [0x55] }) (fun t =>
      t.rdata.isEmpty && t.rstHeld == 2 && t.csN) = true ∧
    gives (exec (.encErase 0) { asked [] with rstIn := some ⟨0, 20, 1⟩ }) (fun t =>
      !t.respValid && t.csN && t.trace == [{ tx := [0x21, 0, 0, 0, 0], rx := [], cut := some 20 }]) = true := by
  decide

/-- `withFetchWord` places a word of either table where the next step runs it. -/
theorem test_fetch_word :
    gives (step (State.reset.withFetchWord 8 0x21)) (fun t => frames t == [[0x21, 0, 0, 0, 0]]) = true ∧
    gives (step (State.reset.withFetchWord 64 0x11)) (fun t => t.resp == 1) = true := by
  decide

/-! ## Witnesses: the hypotheses of every obligation can be met -/

/-- A state in which no pulse of RST is pending and an idle reference device answers. -/
abbrev calm : State := withDevice device

/-- The same with 255 gaps of a busy period to go. -/
abbrev occupied : State := withDevice (busyDevice 255 (.erase 3))

theorem test_witness_calm :
    calm.rstIn = none ∧ calm.rstHeld = 0 ∧ calm.env = .reference ∧ calm.seqState = .idle ∧ calm.host = [] ∧
    calm.dev.busy = false ∧ calm.dev.wel = true ∧ calm.dev.array.wf = true ∧ calm.csN = true ∧ calm.sck = false :=
  ⟨rfl, rfl, rfl, rfl, rfl, rfl, rfl, rfl, rfl, rfl⟩

theorem test_witness_calm_usable : calm.dev.Usable := .inl rfl

/-- DecodeOfEncodeIsTheInstruction, EncodeOfDecodeIsTheCode. -/
theorem test_witness_encoding :
    WellFormed (.encProg 0xFFFFFFFF countUp) ∧ WellFormed (.encRead 0xFFFFFFFF 0xFFFF) ∧
    decode (.frame [0x06]) = .ok .encWren ∧ decode (.req 0x00FFFFFF00000013) = .ok (.sectorOfPage 0xFFFFFF) := by
  decide +kernel

/-- IllegalRequestIsAnsweredIllegal: the second part; each clause of the first is met in `test_illegal_requests`. -/
theorem test_witness_illegal :
    let s := asked [.request 0x0000000000000014 none]
    s.seqState = .idle ∧ s.rstHeld = 0 ∧ s.rstIn = none ∧
    s.host = .request 0x0000000000000014#64 none :: [] ∧
    decode (.req 0x0000000000000014#64) = .error .reservedOp :=
  ⟨rfl, rfl, rfl, rfl, by decide⟩

/-- AddressBitsInTheStream: the last bit of a frame, of an address and of the data of a page program. -/
theorem test_witness_stream : 7 < 8 ∧ 4 < (encErase 0).length ∧ 31 < 32 ∧ 255 < countUp.length := by decide +kernel

/-- SectorOfPageLaws: the bounds p <= q and j < 16 at their edges. -/
theorem test_witness_pages : (0 : BitVec 24).toNat ≤ (0xFFFFFF : BitVec 24).toNat ∧ 15 < 16 := by decide

/-- TranslatorOperationsAnswer: words with an operand one bit too wide. -/
theorem test_witness_translator :
    calm.rstIn = none ∧ (reqOp 0x0100000000000011).toNat ∈ [0x11, 0x13] ∧
    (0x0100000000000011#64).extractLsb' 56 8 ≠ 0#8 ∧ (reqOp 0x0100000000000013).toNat ∈ [0x11, 0x13] ∧
    (reqOp 0x0010000000000012).toNat = 0x12 ∧ (0x0010000000000012#64).extractLsb' 52 12 ≠ 0#12 :=
  ⟨rfl, by decide, by decide, by decide, by decide, by decide⟩

/-- WireCommandIsOneTransaction and, with the device busy, CommandsAreRejectedWhileBusy. -/
theorem test_witness_wire :
    Instr.isWire (.encProg 0 countUp) = true ∧ WellFormed (.encProg 0 countUp) ∧
    encode (.encProg 0 countUp) = .frame (encProg 0 countUp) ∧
    Instr.encProg 0 countUp ∉ [Instr.encSr1, .encSr2, .encSr3] ∧
    occupied.rstIn = none ∧ occupied.env = .reference ∧ occupied.elapse.dev.busy = true :=
  ⟨rfl, by decide +kernel, rfl, by decide +kernel, rfl, rfl, rfl⟩

/-- StatusReadsReturnTheRegisters, StatusOperationsOnTheDevice: both sides of the condition on WEL. -/
theorem test_witness_status :
    calm.elapse.dev.busy = false ∧ occupied.elapse.dev.welBusy = .keep ∧ occupied.rstIn = none ∧
    occupied.env = .reference :=
  ⟨rfl, rfl, rfl, rfl⟩

/-- WriteEnableAndModeCommands: a wire command in 4-byte mode that answers a next state, and the other environment. -/
theorem test_witness_mode :
    (∃ t, exec .encSr1 calm = .next t) ∧ calm.dev.ads = true ∧ (answering []).env = .unconstrained ∧
    (answering []).rstIn = none :=
  ⟨⟨_, rfl⟩, rfl, rfl, rfl⟩

/-- ProgramAndEraseAcceptance: an accepted and an ignored command. -/
theorem test_witness_acceptance :
    countUp.length = 256 ∧ calm.elapse.dev.busy = false ∧ calm.elapse.dev.wel = true ∧
    ¬ (occupied.elapse.dev.busy = false ∧ occupied.elapse.dev.wel = true) :=
  ⟨by decide +kernel, rfl, rfl, fun h => nomatch h.1⟩

/-- The idle device in 3-byte mode, under the default HAVOC. -/
abbrev threeByte : State := withDevice { device with ads := false }

/-- IdentityAndMemoryReads, ReadsDeliverTheArray: the last byte of the device, the first one beyond it, for READ_PAGE
too, and a device in 3-byte mode. -/
theorem test_witness_reads :
    255 < (256#16).toNat ∧ (0x00FFFF00#32).toNat + 255 < calm.dev.lastAddr.toNat + 1 ∧
    calm.dev.lastAddr.toNat + 1 ≤ (0x01000000#32).toNat + 0 ∧
    calm.dev.lastAddr.toNat + 1 ≤ (0x010000#24).toNat * 256 + 0 ∧
    threeByte.rstIn = none ∧ threeByte.env = .reference ∧ threeByte.dev.busy = false ∧ ¬ threeByte.dev.Usable :=
  ⟨by decide, by decide, by decide, by decide, rfl, rfl, rfl, fun h => by rcases h with h | h <;> exact nomatch h⟩

/-- UnconstrainedEnvironmentAnswersAnything: the last byte of a frame, given and drawn. -/
theorem test_witness_open :
    (answering [1, 2]).rstIn = none ∧ (answering [1, 2]).env = .unconstrained ∧ 1 < encSr1.length ∧
    1 < (answering [1, 2]).misoIn.length ∧ ¬ 1 < (answering [1]).misoIn.length :=
  ⟨rfl, rfl, by decide, by decide, by decide⟩

/-- DevicePhaseTransitions: a transition of each kind. -/
theorem test_witness_phases :
    (∃ t, exec .encSr2 calm = .next t ∧ t.dev.phase = .idle true) ∧
    (∃ t, exec .encWren (withDevice { device with wel := false }) = .next t ∧ t.dev.phase = .idle true) ∧
    (∃ t, exec (.encErase 0) calm = .next t ∧ t.dev.phase = .busy) ∧
    (∃ t, exec .encSr1 (withDevice (busyDevice 0 .none)) = .next t ∧ t.dev.phase = .idle false) ∧
    (∃ t, exec .encWren (withDevice (busyDevice 0 .none)) = .next t ∧ t.dev.phase = .idle true) :=
  ⟨⟨_, rfl, rfl⟩, ⟨_, rfl, rfl⟩, ⟨_, rfl, rfl⟩, ⟨_, rfl, rfl⟩, ⟨_, rfl, rfl⟩⟩

/-- ModeSettingOnAnIdleDevice, IdentityOnAnIdleDevice, ReadsDeliverTheArray: the last byte of a page and of a read. -/
theorem test_witness_idle :
    calm.rstIn = none ∧ calm.env = .reference ∧ calm.dev.busy = false ∧ calm.dev.Usable ∧
    255 < 256 ∧ (0xFFFF#24).toNat * 256 + 255 < calm.dev.lastAddr.toNat + 1 ∧ 0 < (1#16).toNat ∧
    (0x00FFFFFF#32).toNat + 0 < calm.dev.lastAddr.toNat + 1 :=
  ⟨rfl, rfl, rfl, .inl rfl, by decide, by decide, by decide, by decide⟩

/-- ProgramsAndErasesStartOnTheDevice: the last page and the last sector of the device, for each of the four. -/
theorem test_witness_start :
    calm.dev.wel = true ∧ calm.dev.Usable ∧
    (0x00FFFF00#32).toNat % 256 = 0 ∧ (0x00FFFF00#32).toNat + 256 ≤ calm.dev.lastAddr.toNat + 1 ∧
    (0xFFFF#24).toNat * 256 + 256 ≤ calm.dev.lastAddr.toNat + 1 ∧
    (0x00FFFFFF#32).toNat / 4096 * 4096 + 4096 ≤ calm.dev.lastAddr.toNat + 1 ∧
    (0xFFF#20).toNat * 4096 + 4096 ≤ calm.dev.lastAddr.toNat + 1 :=
  ⟨rfl, .inl rfl, by decide, by decide, by decide, by decide, by decide⟩

/-- EraseUpToPageOfSectorZero and EraseUpToPageStopsAfterOneErase: the last page of sector 0 and the first of sector 1,
on a device of one sector. -/
theorem test_witness_eraseUpTo :
    let s := withDevice { device with lastAddr := 4095 }
    (15#24).toNat ≤ 15 ∧ 16 ≤ (16#24).toNat ∧ s.rstIn = none ∧ s.env = .reference ∧ s.dev.busy = false ∧
    s.dev.wel = true ∧ s.dev.Usable ∧ 4096 ≤ s.dev.lastAddr.toNat + 1 ∧ s.dev.array.wf = true :=
  ⟨by decide, by decide, rfl, rfl, rfl, rfl, .inl rfl, by decide, rfl⟩

/-- BusyDeviceRefusesEveryCommand, WriteDisabledDeviceRefusesProgramAndErase. -/
theorem test_witness_refusals :
    Instr.eraseUpToPage 0 ∈ [Instr.programPage 0, .eraseSector 0, .writePage 0, .sectorErase 0, .eraseUpToPage 0] ∧
    occupied.elapse.dev.busy = true ∧ occupied.rstIn = none ∧
    (withDevice { device with wel := false }).dev.wel = false ∧
    (withDevice { device with wel := false }).dev.busy = false :=
  ⟨by decide, rfl, rfl, rfl, rfl⟩

/-- AbsentDeviceIsDecodedAsRead: both environments. -/
theorem test_witness_absent (b : Byte) :
    (answering (List.replicate 70000 b)).rstIn = none ∧ (answering (List.replicate 70000 b)).env = .unconstrained ∧
    70000 ≤ 70000 ∧ (answering (List.replicate 70000 b)).misoIn = List.replicate 70000 b :=
  ⟨rfl, rfl, Nat.le_refl _, rfl⟩

/-- EraseUpToPageFollowsTheAnswers: two sectors with both erased, and the second round failing at either check. -/
theorem test_witness_follows :
    let good : List Byte := [0, 0, 0, 2, 0, 0, 0, 0, 0]
    let all := answering (good ++ good)
    let busy := answering (good ++ [0, 1, 0, 2, 0, 0, 0, 0, 0])
    let disabled := answering (good ++ [0, 0, 0, 0, 0, 0, 0, 0, 0])
    (∀ s ∈ [all, busy, disabled], s.rstIn = none ∧ s.env = .unconstrained ∧
      9 * ((31#24).toNat / 16 + 1) ≤ s.misoIn.length) ∧
    (∀ j, j ≤ 1 → (all.misoIn.getD (9 * j + 1) 0).getLsbD 0 = false ∧ (all.misoIn.getD (9 * j + 3) 0).getLsbD 1 = true) ∧
    (∀ s ∈ [busy, disabled], ∀ j, j < 1 →
      (s.misoIn.getD (9 * j + 1) 0).getLsbD 0 = false ∧ (s.misoIn.getD (9 * j + 3) 0).getLsbD 1 = true) ∧
    (busy.misoIn.getD 10 0).getLsbD 0 = true ∧ (disabled.misoIn.getD 10 0).getLsbD 0 = false ∧
    (disabled.misoIn.getD 12 0).getLsbD 1 = false := by
  refine ⟨?_, ?_, ?_, rfl, rfl, rfl⟩
  · intro s hs
    simp only [List.mem_cons, List.not_mem_nil, or_false] at hs
    rcases hs with rfl | rfl | rfl <;> exact ⟨rfl, rfl, by decide⟩
  · decide
  · intro s hs
    simp only [List.mem_cons, List.not_mem_nil, or_false] at hs
    rcases hs with rfl | rfl <;> decide

/-- EveryOperationAnswersWithItsCauses, InstructionsKeepTheBlock, InstructionsKeepTheDevice: a device of one sector, on
which the erase of sector 0 is what becomes pending. -/
theorem test_witness_operation :
    let s := withDevice { device with lastAddr := 4095 }
    Instr.isWire (.eraseUpToPage 16) = false ∧ s.rstIn = none ∧ (15#24).toNat ≤ 15 ∧ s.dev.busy = false ∧
    s.dev.array.wf = true ∧ s.dev.erasePending 0 = .erase 0 ∧ ∃ t, exec (.eraseUpToPage 16) s = .next t :=
  ⟨rfl, rfl, by decide, rfl, rfl, by decide, _, rfl⟩

/-- OkMeansTheDeviceTookTheCommand: OK is answered. -/
theorem test_witness_ok : gives (exec (.sectorErase 1) calm) (fun t => respOk t.resp) = true := by decide

/-- CompletedEraseSetsTheSector, CompletedProgramWritesThePage, WaitingAndHavocKeepTheRest: busy periods at their end,
with any PENDING (a Havoc of the whole array and of a span among them), and before it. -/
theorem test_witness_completion (p : Pending) :
    let s := withDevice (busyDevice 0 p)
    s.seqState = .idle ∧ s.host = [] ∧ s.rstIn = none ∧ s.rstHeld = 0 ∧ s.env = .reference ∧
    s.dev.array.wf = true ∧ s.dev.busy = true ∧ s.dev.busyLeft = 0 ∧ s.dev.pending = p ∧
    occupied.dev.busyLeft = 254 + 1 :=
  ⟨rfl, rfl, rfl, rfl, rfl, rfl, rfl, rfl, rfl, rfl⟩

/-- CompletedProgramWritesThePage: the last data byte of an aligned and of an unaligned program. -/
theorem test_witness_program :
    255 < 256 ∧ (0x100#32).toNat % 256 = 0 ∧ (0x1F0#32).toNat % 256 ≠ 0 ∧ device.programModel = .and := by
  decide

/-- A device whose first sector is erased. -/
def erasedDevice : Device := { device with array := device.array.eraseSector 0x01000000 0 }

theorem erasedDevice_wf : erasedDevice.array.wf = true := by
  rw [erasedDevice]
  exact Flash.eraseSector_wf 0x01000000 0 (m := device.array) rfl

theorem erasedDevice_read {k : Nat} (hk : k < 256) :
    erasedDevice.array.read ((15#24).toNat * 256 + k) = 0xFF#8 := by
  have e : (15#24).toNat * 256 + k = 3840 + k := rfl
  rw [e, erasedDevice, Flash.read_eraseSector (m := device.array) rfl, if_pos]
  omega

/-- WrittenPageReadsBack: a page of an erased sector. -/
theorem test_witness_round_trip :
    (withDevice erasedDevice).rstIn = none ∧ (withDevice erasedDevice).env = .reference ∧
    erasedDevice.busy = false ∧ erasedDevice.wel = true ∧ erasedDevice.Usable ∧ erasedDevice.array.wf = true ∧
    (15#24).toNat * 256 + 256 ≤ erasedDevice.lastAddr.toNat + 1 ∧
    ∀ k, k < 256 → erasedDevice.array.read ((15#24).toNat * 256 + k) = 0xFF#8 :=
  ⟨rfl, rfl, rfl, rfl, .inl rfl, erasedDevice_wf, by decide, fun _ hk => erasedDevice_read hk⟩

/-- PollingEndsTheBusyPeriod. -/
theorem test_witness_polling :
    let s := { withDevice (busyDevice 2 .none) with host := List.replicate 3 (.request 0x0000000000000003 none) }
    s.seqState = .idle ∧ s.rstIn = none ∧ s.rstHeld = 0 ∧ s.env = .reference ∧ s.dev.busy = true ∧
    s.host = List.replicate (s.dev.busyLeft + 1) (.request 0x0000000000000003#64 none) :=
  ⟨rfl, rfl, rfl, rfl, rfl, rfl⟩

/-- A BUSY request in the middle: its one transaction is the next. -/
def midway : State := { calm with seqState := .run, req := 0x0000000000000003 }

/-- StepRunsTheDecodedInstruction: a request without data, one with data, and a transaction. -/
theorem test_witness_step :
    decode (.req 0x0000000000000003#64) = .ok .busy ∧ needsData .busy = false ∧
    decode (.req 0x000000100000000E#64) = .ok (.writePage 16) ∧ needsData (.writePage 16) = true ∧
    midway.seqState = .run ∧ midway.rstHeld = 0 ∧ midway.rstIn = none ∧
    (∃ k, midway.position = some (encSr1, k)) ∧ decode (.frame encSr1) = .ok .encSr1 ∧
    ∃ t, exec .encSr1 midway = .next t ∧ t.seqState = .run :=
  ⟨by decide, rfl, by decide, rfl, rfl, rfl, rfl, ⟨_, rfl⟩, by decide, _, rfl, rfl⟩

/-- ProgramRequestNeedsItsData, HostTakesRdataFromTheFront, StepRunsTheDecodedInstruction: the host's moves. -/
theorem test_witness_moves (w : BitVec 64) (d : Option Page) (n : Nat) :
    (asked [.request w d]).host = .request w d :: [] ∧ (asked [.takeRdata n]).host = .takeRdata n :: [] ∧
    (asked [.request w d]).seqState = .idle ∧ (asked [.request w d]).rstHeld = 0 ∧
    (asked [.request w d]).rstIn = none :=
  ⟨rfl, rfl, rfl, rfl, rfl⟩

/-- OperationsRunToTheirResponse, ConfigurationIsConstant: a step that answers a next state, with and without a request
that it takes. -/
theorem test_witness_next :
    (∃ t, step calm = .next t) ∧
    ∃ t, step (asked [.request 0x0000000000000014 none]) = .next t ∧ t.host = [] :=
  ⟨⟨_, rfl⟩, _, rfl, rfl⟩

/-- OperationIsItsTransactions. -/
theorem test_witness_transactions :
    encode .busy = .req midway.req ∧ opProg .busy midway.wdata = some busyProg ∧ midway.rstHeld = 0 :=
  ⟨rfl, rfl, rfl⟩

/-- StepKeepsTheInvariant, StepNeverStops: the invariant holds in the middle of an operation, and at rest with a valid
failure in RESP. -/
theorem test_witness_invariant :
    (midway.Inv ∧ ∃ t, step midway = .next t) ∧
    ({ calm with respValid := true, resp := 0x0000000000000040 } : State).Inv :=
  ⟨⟨⟨rfl, rfl, rfl, (fun h => nomatch h), fun _ => rfl, fun _ => rfl, fun _ => rfl, fun x hx => (nomatch hx)⟩, _, rfl⟩,
    ⟨rfl, rfl, rfl, fun _ => ⟨by decide, by decide, by decide, by decide⟩, (fun h => nomatch h), fun _ => rfl,
      (fun h => nomatch h), fun x hx => (nomatch hx)⟩⟩

/-- ResetAbandonsAndHolds, ResetDuringAnOperation, TruncatedFrameEffects: a pulse that is due, one that comes later and
one inside a frame, at its first and at its last clock cycle. -/
theorem test_witness_reset (n bits hold : Nat) :
    ({ calm with rstIn := some ⟨n, bits, hold⟩ } : State).rstIn = some ⟨n, bits, hold⟩ ∧
    ({ calm with rstIn := some ⟨n, bits, hold⟩ } : State).rstHeld = 0 ∧
    ({ calm with rstHeld := n + 1 } : State).rstHeld = n + 1 ∧
    (∃ t, exec .busy { calm with rstIn := some ⟨1, 0, hold⟩ } = .next t) ∧
    0 < 1 ∧ 1 < 8 * (encErase 0).length ∧ 39 < 8 * (encErase 0).length :=
  ⟨rfl, rfl, rfl, ⟨_, rfl⟩, by decide, by decide, by decide⟩

end Sys2Proof.Tests
end

section
/-! PROOFS. An operation is its transactions: decoding gives back what was encoded, so that the step executes the wire
command the sequencer step names; a state in RUN stands at the rest of its sequence; and that rest, one transaction a
step, ends where running it whole ends. -/

namespace Sys2Proof

/-! ## Decoding of encoded request words -/

@[simp] theorem decodeReq_packReq (op : BitVec 5) (which : BitVec 2) (len : BitVec 16) (arg : BitVec 32) :
    decodeReq (packReq op which len arg) = decodeOp (packReq op which len arg) := by
  simp [decodeReq]

@[simp] theorem decodePlain_packReq (op : BitVec 5) (i : Instr) :
    decodePlain (packReq op 0#2 0#16 0#32) i = .ok i := by
  simp [decodePlain]

@[simp] theorem decodeReadRaw_packReq (op : BitVec 5) (n : BitVec 16) (a : BitVec 32) :
    decodeReadRaw (packReq op 0#2 n a) = .ok (.readRaw a n) := by
  simp [decodeReadRaw]

@[simp] theorem decodeAddrOp_packReq (op : BitVec 5) (a : BitVec 32) (build : BitVec 32 → Instr) :
    decodeAddrOp (packReq op 0#2 0#16 a) build = .ok (build a) := by
  simp [decodeAddrOp]

/-- The bits that widening adds are 0. -/
theorem extractLsb'_setWidth_high {w : Nat} (v n : Nat) (x : BitVec w) : (x.setWidth v).extractLsb' w n = 0#n := by
  ext j hj
  simp

/-- The bits below the old width are the old value. -/
theorem extractLsb'_setWidth_low {w v : Nat} (h : w ≤ v) (x : BitVec w) : (x.setWidth v).extractLsb' 0 w = x := by
  ext j hj
  simp [show j < v by omega, hj]

@[simp] theorem decodePageOp_packReq (op : BitVec 5) (p : BitVec 24) (build : BitVec 24 → Instr) :
    decodePageOp (packReq op 0#2 0#16 (p.setWidth 32)) build = .ok (build p) := by
  simp [decodePageOp, extractLsb'_setWidth_high, extractLsb'_setWidth_low]

@[simp] theorem decodeSectorOp_packReq (op : BitVec 5) (m : BitVec 20) (build : BitVec 20 → Instr) :
    decodeSectorOp (packReq op 0#2 0#16 (m.setWidth 32)) build = .ok (build m) := by
  simp [decodeSectorOp, extractLsb'_setWidth_high, extractLsb'_setWidth_low]

/-! ## Decoding of encoded frames -/

theorem decodeFrame_encRead (a : BitVec 32) (n : BitVec 16) : decodeFrame (encRead a n.toNat) = .ok (.encRead a n) := by
  have hn := n.isLt
  simp [decodeFrame, encRead, addr4, decodeReadFrame, hn]

theorem decodeFrame_encProg (a : BitVec 32) {d : List Byte} (h : d.length = Config.pageSize) :
    decodeFrame (encProg a d) = .ok (.encProg a d) := by
  simp [decodeFrame, encProg, addr4, decodeProgFrame, h]

theorem decodeFrame_encErase (a : BitVec 32) : decodeFrame (encErase a) = .ok (.encErase a) := by
  simp [decodeFrame, encErase, addr4, decodeEraseFrame]

/-- Decoding the code of a well-formed instruction gives it back. -/
theorem decode_encode {i : Instr} (h : WellFormed i) : decode (encode i) = .ok i := by
  cases i with
  | encSr1 | encSr2 | encSr3 | encEnter4b | encWren | encId => rfl
  | encRead a n => exact decodeFrame_encRead a n
  | encProg a d => exact decodeFrame_encProg a (beq_iff_eq.mp h)
  | encErase a => exact decodeFrame_encErase a
  | readSr1 | readSr2 | readSr3 => simp [decode, encode, decodeOp, decodeReadSr]
  | _ => simp [decode, encode, packOp, packPage, packSector, decodeOp]

end Sys2Proof

namespace Sys2Proof.Machine

/-! ## What is executed -/

/-- Every host operation is well formed: no operand of one can have a wrong length. -/
theorem wellFormed_of_opProg {i : Instr} {d : Page} {p : Prog} (h : opProg i d = some p) : WellFormed i := by
  cases i with
  | encProg a data => cases h
  | _ => rfl

/-- A host operation is executed by serving its sequence. -/
theorem exec_of_opProg {i : Instr} {s : State} {p : Prog} (h : opProg i s.wdata = some p) :
    exec i s = .next (p.run s.start) := by
  cases i <;> cases h <;> rfl

/-- A well-formed wire command is executed as one transaction with its frame (30_encoding R92). -/
theorem exec_of_frame {i : Instr} {tx : List Byte} (hw : WellFormed i) (he : encode i = .frame tx) (s : State) :
    exec i s = .next (s.transact tx).1 := by
  cases i with
  | encProg a d => cases he; exact if_pos (beq_iff_eq.mp hw)
  | _ => cases he <;> rfl

/-! ## The step at a transaction -/

/-- The machine goes on after the Xfer of `tx` with `k`, to the next transaction or the response; a reset that stopped
the Xfer has ended the operation. -/
def State.advance (tx : List Byte) (k : List Byte → Prog) (s : State) : State :=
  match s.transact tx with
  | (t, true) => (k t.result).settle t.noteAnswer
  | (t, false) => t

theorem State.resume_transact {s : State} {tx : List Byte} {k : List Byte → Prog} (hrun : s.seqState = .run)
    (hpos : s.position = some (tx, k)) : s.resume (s.transact tx).1 = s.advance tx k := by
  rcases s.transact_cases tx with ⟨p, h⟩ | ⟨hold, h⟩ | ⟨hold, bits, h⟩
  · simp [State.resume, State.advance, h, hrun, hpos]
  · simp [State.resume, State.advance, h]
  · simp [State.resume, State.advance, h]

theorem runStep_at_transaction {s : State} {tx : List Byte} {k : List Byte → Prog} (hrun : s.seqState = .run)
    (hpos : s.position = some (tx, k)) (hf : WireFrame tx) : runStep s = .next (s.advance tx k) := by
  obtain ⟨i, -, hw, he⟩ := hf
  have hdec : decode (.frame tx) = .ok i := he ▸ decode_encode hw
  simp [runStep, hpos, hdec, exec_of_frame hw he, State.resume_transact hrun hpos]

/-- A pulse of RST that is due between transactions is taken by `step` before it looks at SEQ_STATE, and by the Xfer of
a whole run: the same reset. -/
theorem step_at_transaction {s : State} {tx : List Byte} {k : List Byte → Prog} (hrun : s.seqState = .run)
    (hheld : s.rstHeld = 0) (hpos : s.position = some (tx, k)) (hf : WireFrame tx) :
    step s = .next (s.advance tx k) := by
  simp only [step, stepOf, hheld, hrun]
  split
  · next hold hdue => simp [State.advance, State.transact, hdue]
  · exact runStep_at_transaction hrun hpos hf

/-! ## A state at the rest of its sequence -/

/-- The state is in RUN with RST not held, and its sequencer step stands where `q` is what is left of the sequence of
the operation in REQ (10_state R24). -/
structure State.At (s : State) (q : Prog) : Prop where
  run : s.seqState = .run
  held : s.rstHeld = 0
  left : ∃ i p, decode (.req s.req) = .ok i ∧ opProg i s.wdata = some p ∧
    ∀ rest, p.position (s.answers ++ rest) = q.position rest

theorem State.At.start {s : State} {i : Instr} {p : Prog} (he : encode i = .req s.req) (hp : opProg i s.wdata = some p)
    (hheld : s.rstHeld = 0) : s.start.At p :=
  ⟨rfl, hheld, i, p, he ▸ decode_encode (wellFormed_of_opProg hp), hp, fun _ => rfl⟩

theorem State.At.emit {s : State} {bytes : List Byte} {q : Prog} (h : s.At (.emit bytes q)) : (s.emit bytes).At q :=
  ⟨h.run, h.held, h.left⟩

theorem State.At.setLoop {s : State} {i last : BitVec 20} {q : Prog} (h : s.At (.setLoop i last q)) :
    (s.setLoop i last).At q :=
  ⟨h.run, h.held, h.left⟩

/-- A transaction that is completed, whatever becomes of a pulse of RST, leads to what follows it. -/
theorem State.At.transact {s t : State} {tx : List Byte} {k : List Byte → Prog} (h : s.At (.xfer tx k))
    (ht : s.transact tx = (t, true)) : t.noteAnswer.At (k t.result) := by
  obtain ⟨i, p, hdec, hp, hpos⟩ := h.left
  rcases s.transact_cases tx with ⟨rst, hx⟩ | ⟨hold, hx⟩ | ⟨hold, bits, hx⟩
  · obtain ⟨rfl, -⟩ := Prod.mk.inj (hx.symm.trans ht)
    refine ⟨by simp [h.run], by simp [h.held], i, p, by simpa using hdec, by simpa using hp, fun rest => ?_⟩
    simp [hpos, Prog.position]
  · simp [hx] at ht
  · simp [hx] at ht

/-- Before a transaction the sequencer step names it. -/
theorem State.At.position {s : State} {tx : List Byte} {k : List Byte → Prog} (h : s.At (.xfer tx k)) :
    s.position = some (tx, k) := by
  obtain ⟨i, p, hdec, hp, hpos⟩ := h.left
  simpa [State.position, hdec, hp, Prog.position] using hpos []

/-! ## Step by step and whole -/

/-- One step, then the run from where it leads. -/
theorem run_succ {s t : State} (n : Nat) (h : step s = .next t) :
    Host.Core.run core (n + 1) s = Host.Core.run core n t := by
  have hc : core.step s = .next t := h
  simp only [Host.Core.run, hc]

/-- From the next transaction of the rest of a sequence, some number of steps leads to where running that rest whole
ends: its response, or the reset that abandons it. -/
theorem Prog.settle_steps_to_run (q : Prog) (hf : q.Sends WireFrame) (s : State) (h : s.At q) :
    ∃ n, Host.Core.run core n (q.settle s) = .next (q.run s) := by
  induction q generalizing s with
  | xfer tx k ih =>
    have hstep := step_at_transaction h.run h.held h.position hf.1
    cases ht : s.transact tx with
    | mk t completed =>
      simp only [State.advance, ht] at hstep
      simp only [Prog.settle, Prog.run, ht]
      cases completed with
      | false => exact ⟨1, run_succ 0 hstep⟩
      | true =>
        obtain ⟨n, hn⟩ := ih _ (hf.2 _) _ (h.transact ht)
        exact ⟨n + 1, (run_succ n hstep).trans hn⟩
  | emit bytes q ih => exact ih hf _ h.emit
  | setLoop i last q ih => exact ih hf _ h.setLoop
  | respond ok c val => exact ⟨0, rfl⟩

/-- Settles O48: a host operation serves its sequence, and a state at the start of the sequence steps to where the
whole run ends. -/
theorem operationIsItsTransactions : Obligations.OperationIsItsTransactions := by
  intro i s p he hp hheld
  obtain ⟨n, hn⟩ := Prog.settle_steps_to_run p (opProg_sends hp) s.start (State.At.start he hp hheld)
  exact ⟨n, p.run s.start, exec_of_opProg hp, hn⟩

end Sys2Proof.Machine
end

section
/-! PROOFS. The step. What one step of the machine can do is said once (`StepCase`); from it come what a step keeps of
the configuration, where a step that begins in IDLE ends, and that every step keeps the invariant. -/

namespace Sys2Proof

/-! ## A request word that decodes is that of a host operation (30_encoding R102) -/

theorem decodePlain_ok {w : BitVec 64} {i j : Instr} (h : decodePlain w i = .ok j) : j = i := by
  simp only [decodePlain] at h
  split_ifs at h; cases h
  rfl

theorem decodeReadSr_ok {w : BitVec 64} {j : Instr} (h : decodeReadSr w = .ok j) :
    j = .readSr1 ∨ j = .readSr2 ∨ j = .readSr3 := by
  simp only [decodeReadSr] at h
  split_ifs at h
  split at h <;> cases h <;> simp

theorem decodeReadRaw_ok {w : BitVec 64} {j : Instr} (h : decodeReadRaw w = .ok j) : ∃ a n, j = .readRaw a n := by
  simp only [decodeReadRaw] at h
  split_ifs at h; cases h
  exact ⟨_, _, rfl⟩

theorem decodeAddrOp_ok {w : BitVec 64} {build : BitVec 32 → Instr} {j : Instr} (h : decodeAddrOp w build = .ok j) :
    ∃ a, j = build a := by
  simp only [decodeAddrOp] at h
  split_ifs at h; cases h
  exact ⟨_, rfl⟩

theorem decodePageOp_ok {w : BitVec 64} {build : BitVec 24 → Instr} {j : Instr} (h : decodePageOp w build = .ok j) :
    ∃ p, j = build p := by
  simp only [decodePageOp] at h
  split_ifs at h; cases h
  exact ⟨_, rfl⟩

theorem decodeSectorOp_ok {w : BitVec 64} {build : BitVec 20 → Instr} {j : Instr}
    (h : decodeSectorOp w build = .ok j) : ∃ m, j = build m := by
  simp only [decodeSectorOp] at h
  split_ifs at h; cases h
  exact ⟨_, rfl⟩

namespace Machine

theorem opProg_of_decodeOp {w : BitVec 64} {i : Instr} (h : decodeOp w = .ok i) (d : Page) :
    ∃ p, opProg i d = some p := by
  simp only [decodeOp] at h
  split at h
  · obtain rfl := decodePlain_ok h; exact ⟨_, rfl⟩
  · rcases decodeReadSr_ok h with rfl | rfl | rfl <;> exact ⟨_, rfl⟩
  iterate 7
    · obtain rfl := decodePlain_ok h; exact ⟨_, rfl⟩
  · obtain ⟨a, n, rfl⟩ := decodeReadRaw_ok h; exact ⟨_, rfl⟩
  iterate 2
    · obtain ⟨a, rfl⟩ := decodeAddrOp_ok h; exact ⟨_, rfl⟩
  iterate 2
    · obtain ⟨p, rfl⟩ := decodePageOp_ok h; exact ⟨_, rfl⟩
  · obtain ⟨m, rfl⟩ := decodeSectorOp_ok h; exact ⟨_, rfl⟩
  iterate 2
    · obtain ⟨p, rfl⟩ := decodePageOp_ok h; exact ⟨_, rfl⟩
  · obtain ⟨m, rfl⟩ := decodeSectorOp_ok h; exact ⟨_, rfl⟩
  · obtain ⟨p, rfl⟩ := decodePageOp_ok h; exact ⟨_, rfl⟩
  · cases h

/-- A request word that decodes has a sequence to serve. -/
theorem opProg_of_decode {w : BitVec 64} {i : Instr} (h : decode (.req w) = .ok i) (d : Page) :
    ∃ p, opProg i d = some p := by
  simp only [decode, decodeReq] at h
  split at h
  · cases h
  · exact opProg_of_decodeOp h d

/-! ## Everything a step can do -/

/-- The sequence behind the transaction that a sequencer step names (10_state R24). -/
theorem State.position_eq_some {s : State} {tx : List Byte} {k : List Byte → Prog} (h : s.position = some (tx, k)) :
    ∃ i p, decode (.req s.req) = .ok i ∧ opProg i s.wdata = some p ∧ p.position s.answers = some (tx, k) := by
  simp only [State.position] at h
  split at h
  · cases h
  · next i hi =>
    obtain ⟨p, hp, hpos⟩ := Option.bind_eq_some_iff.mp h
    exact ⟨i, p, hi, hp, hpos⟩

/-- The request at the host port is taken and accepted (10_state R21). -/
def State.takeRequest (w : BitVec 64) (data : Option Page) (rest : List HostEvent) (s : State) : State :=
  { s with host := rest }.accept w data

/-- What a step can lead to from `s`: RST held or asserted; in IDLE only time passes, the host takes from RDATA, an
illegal request is answered, or a request is accepted and its sequence run; in RUN the transaction that the sequencer
step names is made. -/
inductive StepCase (s : State) : State → Prop
  | held {n : Nat} (hheld : s.rstHeld = n + 1) : StepCase s { s.elapse.blockReset with rstHeld := n }
  | reset {hold : Nat} (hdue : s.rstIn = some ⟨0, 0, hold⟩) : StepCase s (s.assertRst hold)
  | waited (hidle : s.seqState = .idle) : StepCase s s.elapse
  | taken {n : Nat} {rest : List HostEvent} (hidle : s.seqState = .idle) (hhost : s.host = .takeRdata n :: rest) :
      StepCase s { s with rdata := s.rdata.drop n, host := rest }
  | illegal {w : BitVec 64} {rest : List HostEvent} (hidle : s.seqState = .idle) :
      StepCase s ((s.takeRequest w none rest).respond false .illegal 0)
  | served {w : BitVec 64} {rest : List HostEvent} {data : Option Page} {i : Instr} {p : Prog}
      (hidle : s.seqState = .idle) (hi : decode (.req w) = .ok i)
      (hp : opProg i (s.takeRequest w data rest).wdata = some p) : StepCase s (p.run (s.takeRequest w data rest))
  | transacted {tx : List Byte} {k : List Byte → Prog} (hrun : s.seqState = .run) (hheld : s.rstHeld = 0)
      (hpos : s.position = some (tx, k)) : StepCase s (s.advance tx k)

theorem serveRequest_cases {s t : State} {w : BitVec 64} {data : Option Page} {rest : List HostEvent}
    (hidle : s.seqState = .idle) (h : serveRequest w data { s with host := rest } s = .next t) : StepCase s t := by
  have serves {i : Instr} {d : Option Page} (hi : decode (.req w) = .ok i)
      (he : exec i (s.takeRequest w d rest) = .next t) : StepCase s t := by
    obtain ⟨p, hp⟩ := opProg_of_decode hi (s.takeRequest w d rest).wdata
    rw [exec_of_opProg hp] at he
    cases he
    exact .served hidle hi hp
  simp only [serveRequest] at h
  split at h
  · cases h; exact .illegal hidle
  · next i hi =>
    split at h
    · split at h
      · cases h; exact .waited hidle
      · exact serves hi h
    · exact serves hi h

theorem idleStep_cases {s t : State} (hidle : s.seqState = .idle) (h : idleStep s = .next t) : StepCase s t := by
  simp only [idleStep] at h
  split at h
  · cases h; exact .waited hidle
  · next hhost => cases h; exact .taken hidle hhost
  · exact serveRequest_cases hidle h

theorem runStep_cases {s t : State} (hrun : s.seqState = .run) (hheld : s.rstHeld = 0) (h : runStep s = .next t) :
    StepCase s t := by
  cases hpos : s.position with
  | none => simp [runStep, hpos] at h
  | some txk =>
    obtain ⟨i, p, -, hp, hq⟩ := State.position_eq_some hpos
    rw [runStep_at_transaction hrun hpos (Prog.position_sends (opProg_sends hp) hq).1] at h
    cases h
    exact .transacted hrun hheld hpos

theorem step_cases {s t : State} (h : step s = .next t) : StepCase s t := by
  simp only [step, stepOf] at h
  split at h
  · next hheld => cases h; exact .held hheld
  · next hheld =>
    split at h
    · next hdue => cases h; exact .reset hdue
    · split at h
      · next hidle => exact idleStep_cases hidle h
      · next hrun => exact runStep_cases hrun hheld h

/-! ## The decoded instruction is executed (10_state R21, R24) -/

/-- With no pulse of RST a step in IDLE serves the host port. -/
theorem step_idle {s : State} (hidle : s.seqState = .idle) (hheld : s.rstHeld = 0) (hrst : s.rstIn = none) :
    step s = idleStep s := by
  simp [step, stepOf, hidle, hheld, hrst]

/-- With no pulse of RST a step in RUN makes the transaction that is next. -/
theorem step_run {s : State} (hrun : s.seqState = .run) (hheld : s.rstHeld = 0) (hrst : s.rstIn = none) :
    step s = runStep s := by
  simp [step, stepOf, hrun, hheld, hrst]

/-- Settles O44: the IDLE half is the host port's dispatch on the decoded request, the RUN half that on the decoded
frame. -/
theorem stepRunsTheDecodedInstruction : Obligations.StepRunsTheDecodedInstruction := by
  constructor
  · intro s w data rest i hidle hheld hrst hhost hi
    rw [step_idle hidle hheld hrst]
    constructor
    · intro hn
      simp [idleStep, hhost, serveRequest, hi, hn, State.accept]
    · rintro page hn rfl
      simp [idleStep, hhost, serveRequest, hi, hn, State.accept]
  · intro s t tx k i hrun hheld hrst hpos hi hexec ht
    rw [step_run hrun hheld hrst]
    simp [runStep, hpos, hi, hexec, State.resume, ht, State.noteAnswer]

/-- Settles O46: the move at the head of the host's list is taken in IDLE. -/
theorem hostTakesRdataFromTheFront : Obligations.HostTakesRdataFromTheFront := by
  intro s n rest hidle hheld hrst hhost
  rw [step_idle hidle hheld hrst]
  simp [idleStep, hhost]

/-! ## A step that begins in IDLE -/

/-- With no pulse of RST pending a sequence ends in its response. -/
theorem Prog.run_respValid_quiet (p : Prog) {s : State} (h : s.rstIn = none) : (p.run s).respValid = true := by
  induction p generalizing s with
  | xfer tx k ih =>
    rw [Prog.run_xfer_quiet h]
    exact ih _ (by simp [h])
  | emit bytes p ih => exact ih (by simp [h])
  | setLoop i last p ih => exact ih (by simp [h])
  | respond ok c val => rw [Prog.run_respond, State.respond_quiet h]; rfl

/-- Settles O47: of what a step in IDLE can do, only the illegal and the served request take a request, and both end in
a response. -/
theorem operationsRunToTheirResponse : Obligations.OperationsRunToTheirResponse := by
  intro s t hidle hstep
  cases step_cases hstep with
  | held hheld => exact ⟨rfl, fun w data rest hz => by omega⟩
  | reset hdue => exact ⟨rfl, fun w data rest _ hrst => by simp [hdue] at hrst⟩
  | waited => exact ⟨hidle, fun w data rest _ _ hhost ht => by simp [hhost] at ht⟩
  | taken _ htake => exact ⟨hidle, fun w data rest _ _ hhost => by simp [htake] at hhost⟩
  | illegal =>
    refine ⟨State.respond_seqState _ _ _ _, fun w data rest _ hrst _ _ => ?_⟩
    exact Prog.run_respValid_quiet (.respond false .illegal 0) hrst
  | served => exact ⟨Prog.run_seqState _ _, fun w data rest _ hrst _ _ => Prog.run_respValid_quiet _ hrst⟩
  | transacted hrun => simp [hidle] at hrun

/-! ## The configuration -/

/-- What no step changes: the configuration, the environment and the constants of the device (10_state R29, R38,
20_memory R60). -/
def SameConfig (s t : State) : Prop :=
  t.sckHz = s.sckHz ∧ t.csId = s.csId ∧ t.env = s.env ∧ SameDevice s.dev t.dev

theorem SameConfig.refl (s : State) : SameConfig s s := ⟨rfl, rfl, rfl, SameDevice.refl _⟩

theorem SameConfig.elapse {r s : State} (h : SameConfig r s) : SameConfig r s.elapse := by
  obtain ⟨hhz, hcs, henv, hdev⟩ := h
  exact ⟨hhz, hcs, henv, hdev.trans s.elapse_same⟩

theorem SameConfig.xfer {r s : State} (h : SameConfig r s) (tx : List Byte) : SameConfig r (s.xfer tx) := by
  obtain ⟨hhz, hcs, henv, hdev⟩ := h
  exact ⟨hhz, hcs, henv, hdev.trans (s.xfer_same tx)⟩

theorem SameConfig.truncate {r s : State} (h : SameConfig r s) (tx : List Byte) (bits : Nat) :
    SameConfig r (s.truncate tx bits) := by
  obtain ⟨hhz, hcs, henv, hdev⟩ := h
  refine ⟨hhz, hcs, henv, ?_⟩
  simp only [State.truncate]
  split
  · exact hdev.trans (Device.truncate_same _ _ _)
  · exact hdev

theorem SameConfig.transact {r s : State} (h : SameConfig r s) (tx : List Byte) :
    SameConfig r (s.transact tx).1 := by
  rcases s.transact_cases tx with ⟨p, ht⟩ | ⟨hold, ht⟩ | ⟨hold, bits, ht⟩ <;> rw [ht]
  · exact SameConfig.xfer (s := { s with rstIn := p }) h tx
  · exact h
  · exact h.elapse.truncate tx bits

theorem SameConfig.respond {r s : State} (h : SameConfig r s) (ok : Bool) (c : Cause) (val : BitVec 32) :
    SameConfig r (s.respond ok c val) := by
  rcases s.respond_cases ok c val with ⟨p, hr⟩ | ⟨hold, hr⟩ <;> rw [hr] <;> exact h

theorem SameConfig.takeRequest {r s : State} (h : SameConfig r s) {w : BitVec 64} {data : Option Page}
    {rest : List HostEvent} : SameConfig r (s.takeRequest w data rest) := h

theorem SameConfig.run {r s : State} (h : SameConfig r s) (p : Prog) : SameConfig r (p.run s) :=
  Prog.run_keeps (P := SameConfig r) (fun s p tx hs => SameConfig.xfer (s := { s with rstIn := p }) hs tx)
    (fun _ tx bits _ hs => hs.elapse.truncate tx bits) (fun _ _ hs => hs) (fun _ _ hs => hs) (fun _ _ _ hs => hs)
    (fun _ _ _ _ _ hs => hs) p s h

theorem SameConfig.settle {r s : State} (h : SameConfig r s) (p : Prog) : SameConfig r (p.settle s) := by
  induction p generalizing s with
  | xfer tx k ih => exact h
  | emit bytes p ih => exact ih (s := s.emit bytes) h
  | setLoop i last p ih => exact ih (s := s.setLoop i last) h
  | respond ok c val => exact h.respond ok c val

theorem SameConfig.advance {r s : State} (h : SameConfig r s) (tx : List Byte) (k : List Byte → Prog) :
    SameConfig r (s.advance tx k) := by
  have ht := h.transact tx
  simp only [State.advance]
  split
  · next t he => rw [he] at ht; exact SameConfig.settle (s := t.noteAnswer) ht _
  · next t he => rwa [he] at ht

/-- Settles O52: every case of a step keeps the configuration, a sequence because its transactions do. -/
theorem configurationIsConstant : Obligations.ConfigurationIsConstant := by
  intro s t hstep
  have h : SameConfig s s := SameConfig.refl s
  cases step_cases hstep with
  | held => exact h.elapse
  | reset => exact h
  | waited => exact h.elapse
  | taken => exact h
  | illegal => exact h.takeRequest.respond _ _ _
  | served => exact h.takeRequest.run _
  | transacted => exact h.advance _ _

/-! ## The response word (30_encoding R101) -/

/-- RESP as a number (30_encoding R101). -/
theorem respWord_toNat (ok : Bool) (c : Cause) (val : BitVec 32) :
    (respWord ok c val).toNat = val.toNat * 2 ^ 32 + (causeCode c).toNat * 2 ^ 4 + ok.toNat := by
  have hc := (causeCode c).isLt
  have hv := val.isLt
  have ho := (BitVec.ofBool ok).isLt
  simp only [respWord, BitVec.toNat_append, BitVec.toNat_ofNat, Nat.zero_mod, Nat.or_zero]
  rw [← Nat.shiftLeft_add_eq_or_of_lt hc, ← Nat.shiftLeft_add_eq_or_of_lt ho]
  simp only [Nat.shiftLeft_eq, BitVec.toNat_ofBool]
  omega

theorem respOk_respWord (ok : Bool) (c : Cause) (val : BitVec 32) : respOk (respWord ok c val) = ok := by
  simp only [respOk, respWord, BitVec.getLsbD_append, BitVec.getLsbD_ofBool]; simp

theorem respCause_respWord (ok : Bool) (c : Cause) (val : BitVec 32) :
    respCause (respWord ok c val) = causeCode c := by
  apply BitVec.eq_of_toNat_eq
  have hc := (causeCode c).isLt
  have ho := ok.toNat_lt
  simp only [respCause, BitVec.extractLsb'_toNat, respWord_toNat, Nat.shiftRight_eq_div_pow]
  omega

/-- The reserved bits of a response are 0 (30_encoding R101). -/
theorem respWord_reserved (ok : Bool) (c : Cause) (val : BitVec 32) :
    (respWord ok c val).extractLsb' 1 3 = 0#3 ∧ (respWord ok c val).extractLsb' 8 24 = 0#24 := by
  have hc := (causeCode c).isLt
  have ho := ok.toNat_lt
  constructor <;> apply BitVec.eq_of_toNat_eq <;>
    simp only [BitVec.extractLsb'_toNat, respWord_toNat, Nat.shiftRight_eq_div_pow, BitVec.toNat_ofNat] <;> omega

/-- A legal answer gives a legal RESP (60_exceptions R201). -/
theorem respLegal_respWord {ok : Bool} {c : Cause} {val : BitVec 32} (h : LegalAnswer ok c val) :
    respLegal (respWord ok c val) := by
  obtain ⟨hlow, hmid⟩ := respWord_reserved ok c val
  refine ⟨hlow, hmid, ?_, ?_⟩
  · rw [respCause_respWord]
    cases c <;> decide
  · rw [respOk_respWord, respCause_respWord]
    intro hok
    rw [h hok]
    rfl

/-! ## What of the invariant holds at every point of an operation -/

/-- A transaction of a wire command, answered by as many bytes as were sent if it was completed (30_encoding R92). -/
def KnownXact (x : BusXact) : Prop :=
  ∃ i : Instr, i.isWire = true ∧ WellFormed i ∧ decode (.frame x.tx) = .ok i ∧
    (x.cut = none → x.rx.length = x.tx.length)

/-- The clauses of `State.Inv` that hold between any two transactions of an operation too. -/
def State.Steady (s : State) : Prop :=
  s.dev.array.wf = true ∧ s.csN = true ∧ s.sck = false ∧ (s.respValid = true → respLegal s.resp) ∧
  ∀ x ∈ s.trace, KnownXact x

theorem State.Inv.steady {s : State} (h : s.Inv) : s.Steady := ⟨h.array, h.csN, h.sck, h.resp, h.frames⟩

/-- At rest nothing else is asked. -/
theorem State.Steady.inv_of_idle {s : State} (h : s.Steady) (hidle : s.seqState = .idle) (ha : s.answers = []) :
    s.Inv := by
  obtain ⟨harray, hcs, hsck, hresp, hframes⟩ := h
  exact ⟨harray, hcs, hsck, hresp, fun hrun => by simp [hidle] at hrun, fun _ => ha,
    fun hrun => by simp [hidle] at hrun, hframes⟩

/-- Before a transaction RESP_VALID is clear, and the sequencer step names the transaction. -/
theorem State.Steady.inv_of_at {s : State} {tx : List Byte} {k : List Byte → Prog} (h : s.Steady)
    (hat : s.At (.xfer tx k)) (hv : s.respValid = false) : s.Inv := by
  obtain ⟨harray, hcs, hsck, hresp, hframes⟩ := h
  exact ⟨harray, hcs, hsck, hresp, fun _ => hv, fun hidle => by simp [hat.run] at hidle,
    fun _ => by simp [hat.position], hframes⟩

theorem WireFrame.known {tx : List Byte} (h : WireFrame tx) {rx : List Byte} {cut : Option Nat}
    (hrx : cut = none → rx.length = tx.length) : KnownXact { tx := tx, rx := rx, cut := cut } := by
  obtain ⟨i, hwire, hwf, he⟩ := h
  exact ⟨i, hwire, hwf, he ▸ decode_encode hwf, hrx⟩

theorem State.Steady.elapse {s : State} (h : s.Steady) : s.elapse.Steady := by
  obtain ⟨harray, hrest⟩ := h
  exact ⟨State.elapse_wf harray, hrest⟩

theorem State.Steady.xfer {s : State} (h : s.Steady) {tx : List Byte} (hf : WireFrame tx) : (s.xfer tx).Steady := by
  obtain ⟨harray, -, -, hresp, hframes⟩ := h
  refine ⟨State.xfer_wf harray tx, rfl, rfl, hresp, ?_⟩
  rw [State.xfer_trace]
  exact List.forall_mem_cons.mpr ⟨hf.known fun _ => State.answer_length _ _, hframes⟩

theorem State.Steady.truncate {s : State} (h : s.Steady) {tx : List Byte} (hf : WireFrame tx) (bits : Nat) :
    (s.truncate tx bits).Steady := by
  obtain ⟨harray, hcs, hsck, hresp, hframes⟩ := h
  refine ⟨?_, hcs, hsck, hresp, List.forall_mem_cons.mpr ⟨hf.known fun hc => by simp at hc, hframes⟩⟩
  simp only [State.truncate]
  split
  · rw [Device.truncate_array]; exact harray
  · exact harray

theorem State.Steady.blockReset {s : State} (h : s.Steady) : s.blockReset.Steady := by
  obtain ⟨harray, -, -, -, hframes⟩ := h
  exact ⟨harray, rfl, rfl, fun hv => by simp at hv, hframes⟩

theorem State.Steady.assertRst {s : State} (h : s.Steady) (hold : Nat) : (s.assertRst hold).Inv :=
  State.Steady.inv_of_idle (s := s.assertRst hold) h.blockReset rfl rfl

/-- A legal response, or the reset that takes its place, leaves the block at rest. -/
theorem State.Steady.respond {s : State} (h : s.Steady) {ok : Bool} {c : Cause} {val : BitVec 32}
    (hlegal : LegalAnswer ok c val) : (s.respond ok c val).Inv := by
  rcases s.respond_cases ok c val with ⟨p, hr⟩ | ⟨hold, hr⟩ <;> rw [hr]
  · obtain ⟨harray, hcs, hsck, -, hframes⟩ := h
    exact State.Steady.inv_of_idle ⟨harray, hcs, hsck, fun _ => respLegal_respWord hlegal, hframes⟩ rfl rfl
  · exact h.assertRst hold

/-- An Xfer that a reset stops leaves the block at rest, and one that is completed goes on. -/
theorem State.Steady.transact {s t : State} (h : s.Steady) {tx : List Byte} (hf : WireFrame tx) {completed : Bool}
    (ht : s.transact tx = (t, completed)) :
    if completed then t.Steady ∧ t.respValid = s.respValid else t.Inv := by
  rcases s.transact_cases tx with ⟨p, hx⟩ | ⟨hold, hx⟩ | ⟨hold, bits, hx⟩ <;> rw [hx] at ht <;>
    obtain ⟨rfl, rfl⟩ := Prod.mk.inj ht
  · exact ⟨State.Steady.xfer (s := { s with rstIn := p }) h hf, rfl⟩
  · exact h.assertRst hold
  · exact (h.elapse.truncate hf bits).assertRst hold

/-! ## Every step keeps the invariant -/

/-- A sequence run whole ends at rest. -/
theorem Prog.run_inv (q : Prog) (hf : q.Sends WireFrame) (hl : q.Answers LegalAnswer) {s : State} (h : s.Steady) :
    (q.run s).Inv := by
  induction q generalizing s with
  | xfer tx k ih =>
    simp only [Prog.run]
    split
    · next t ht => exact ih _ (hf.2 _) (hl _) (s := t.noteAnswer) (h.transact hf.1 ht).1
    · next t ht => exact h.transact hf.1 ht
  | emit bytes q ih => exact ih hf hl (s := s.emit bytes) h
  | setLoop i last q ih => exact ih hf hl (s := s.setLoop i last) h
  | respond ok c val => exact h.respond hl

/-- A sequence run up to its next transaction stands before it or is at rest. -/
theorem Prog.settle_inv (q : Prog) (hl : q.Answers LegalAnswer) {s : State} (h : s.Steady) (hat : s.At q)
    (hv : s.respValid = false) : (q.settle s).Inv := by
  induction q generalizing s with
  | xfer tx k ih => exact h.inv_of_at hat hv
  | emit bytes q ih => exact ih hl (s := s.emit bytes) h hat.emit hv
  | setLoop i last q ih => exact ih hl (s := s.setLoop i last) h hat.setLoop hv
  | respond ok c val => exact h.respond hl

/-- A state whose sequencer step names a transaction stands at the rest of its sequence from there. -/
theorem State.At.of_position {s : State} {tx : List Byte} {k : List Byte → Prog} (hrun : s.seqState = .run)
    (hheld : s.rstHeld = 0) (hpos : s.position = some (tx, k)) : s.At (.xfer tx k) := by
  obtain ⟨i, p, hi, hp, hq⟩ := State.position_eq_some hpos
  refine ⟨hrun, hheld, i, p, hi, hp, fun rest => ?_⟩
  cases rest with
  | nil => simpa [Prog.position] using hq
  | cons a rest => exact Prog.position_append hq a rest

theorem State.Inv.advance {s : State} (h : s.Inv) {tx : List Byte} {k : List Byte → Prog} (hrun : s.seqState = .run)
    (hheld : s.rstHeld = 0) (hpos : s.position = some (tx, k)) : (s.advance tx k).Inv := by
  obtain ⟨i, p, -, hp, hq⟩ := State.position_eq_some hpos
  have hf : WireFrame tx := (Prog.position_sends (opProg_sends hp) hq).1
  simp only [State.advance]
  split
  · next t ht =>
    obtain ⟨hsteady, hv⟩ := h.steady.transact hf ht
    exact Prog.settle_inv _ (Prog.position_answers (opProg_answers hp) hq _) (s := t.noteAnswer) hsteady
      ((State.At.of_position hrun hheld hpos).transact ht) (hv.trans (h.running hrun))
  · next t ht => exact h.steady.transact hf ht

/-- An accepted request leaves nothing to ask of RESP. -/
theorem State.Inv.takeRequest {s : State} (h : s.Inv) (w : BitVec 64) (data : Option Page) (rest : List HostEvent) :
    (s.takeRequest w data rest).Steady :=
  ⟨h.array, h.csN, h.sck, fun hv => by simp [State.takeRequest] at hv, h.frames⟩

/-- Settles O50: between transactions the clauses of `State.Steady` hold; a sequence, whole or one transaction of it,
keeps them and ends at rest or before its next transaction. -/
theorem stepKeepsTheInvariant : Obligations.StepKeepsTheInvariant := by
  intro s t h hstep
  cases step_cases hstep with
  | held => exact State.Steady.inv_of_idle h.steady.elapse.blockReset rfl rfl
  | reset => exact h.steady.assertRst _
  | waited hidle => exact h.steady.elapse.inv_of_idle hidle (h.resting hidle)
  | taken hidle => exact State.Steady.inv_of_idle h.steady hidle (h.resting hidle)
  | illegal => exact (h.takeRequest _ _ _).respond fun hok => by simp at hok
  | served hidle hi hp => exact Prog.run_inv _ (opProg_sends hp) (opProg_answers hp) (h.takeRequest _ _ _)
  | transacted hrun hheld hpos => exact h.advance hrun hheld hpos

/-! ## The state after reset -/

/-- Settles O49: at reset nothing is listed in the array, nothing has been sent, and RESP_VALID is 0. -/
theorem resetMeetsTheInvariant : Obligations.ResetMeetsTheInvariant :=
  State.Steady.inv_of_idle ⟨rfl, rfl, rfl, fun h => absurd h (by decide), List.forall_mem_nil _⟩ rfl rfl

/-- Settles O53: the values that `State.reset` and `Device.powerOn` give. -/
theorem resetState : Obligations.ResetState :=
  ⟨rfl, rfl, rfl, rfl, rfl, rfl, rfl, rfl, rfl, rfl, rfl, rfl, rfl⟩

end Machine

end Sys2Proof
end

section
/-! PROOFS. Wire commands with no pulse of RST pending: what an unconstrained environment answers to one, what the
device does at its deselect, and through which phases it goes. -/

namespace Sys2Proof.Machine

/-! ## Wire commands -/

/-- What executes to a next state is an instruction: a page program of another length is refused (40 R128). -/
theorem wellFormed_of_exec {i : Instr} {s t : State} (h : exec i s = .next t) : WellFormed i := by
  cases i with
  | encProg a d =>
    simp only [exec, execEncProg] at h
    split at h
    · next hlen => exact beq_iff_eq.mpr hlen
    · cases h
  | _ => rfl

theorem frame_of_isWire {i : Instr} (h : i.isWire = true) : ∃ tx, encode i = .frame tx := by
  cases i with
  | encSr1 | encSr2 | encSr3 | encEnter4b | encWren | encId | encRead | encProg | encErase => exact ⟨_, rfl⟩
  | _ => cases h

/-- With no pulse of RST a wire command is one whole transaction. -/
theorem exec_wire_quiet {i : Instr} {s t : State} (hwire : i.isWire = true) (hrst : s.rstIn = none)
    (h : exec i s = .next t) : WellFormed i ∧ ∃ tx, encode i = .frame tx ∧ t = s.xfer tx := by
  have hwf := wellFormed_of_exec h
  obtain ⟨tx, he⟩ := frame_of_isWire hwire
  rw [exec_of_frame hwf he, State.transact_quiet hrst] at h
  cases h
  exact ⟨hwf, tx, he, rfl⟩

/-- A byte received beyond the end of the inputs is a draw of its own index (10_state R38). -/
theorem openAnswer_getD_eq (n : Nat) (input : List Byte) {len k : Nat} (h : k < len) (x : Byte) :
    (openAnswer n input len).getD k x = if k < input.length then input.getD k x else Config.draw (n + k) := by
  split
  · next hk => exact openAnswer_getD n input len k h hk x
  · next hk => simp [openAnswer, List.getD_eq_getElem?_getD, h, hk]

/-- Settles O17: the transaction of an unconstrained environment is answered by `openAnswer`. -/
theorem unconstrainedEnvironmentAnswersAnything : Obligations.UnconstrainedEnvironmentAnswersAnything := by
  intro i tx s _ hwf he hrst henv
  have hexec : exec i s = .next (s.xfer tx) := by rw [exec_of_frame hwf he, State.transact_quiet hrst]
  have hanswer : s.elapse.answer tx = openAnswer (s.draws + 1) s.misoIn tx.length :=
    State.answer_unconstrained (s := s.elapse) henv tx
  refine ⟨s.xfer tx, s.elapse.answer tx, s.draws + 1, hexec, rfl, State.answer_length _ _,
    State.xfer_dev_unconstrained henv tx, State.xfer_misoIn_unconstrained henv tx, fun k hk => ?_⟩
  rw [hanswer, openAnswer_getD_eq _ _ hk]

/-! ## What a wire command does to the device -/

theorem Device.accept_cases (d : Device) (n : Nat) (p : Pending) :
    d.accept n p = d ∨ (d.busy = false ∧ d.wel = true ∧ d.Accepted (d.accept n p) p) := by
  simp only [Device.accept]
  split
  · next h =>
    obtain ⟨hb, hw⟩ := Bool.and_eq_true_iff.mp h
    exact .inr ⟨by simpa using hb, hw, _, rfl⟩
  · exact .inl rfl

/-- Everything the device can do at the deselect of a wire command: nothing, or on an idle device the command's own
effect (20_memory R63, R64, R67, R68). -/
theorem Device.act_cases {i : Instr} {tx : List Byte} (hwf : WellFormed i) (he : encode i = .frame tx) (d : Device)
    (n : Nat) :
    d.act n tx = d ∨
    (i = .encWren ∧ d.busy = false ∧ d.act n tx = { d with wel := true }) ∨
    (i = .encEnter4b ∧ d.busy = false ∧ d.act n tx = { d with ads := true }) ∨
    (∃ a data, i = .encProg a data ∧ d.busy = false ∧ d.wel = true ∧
      d.Accepted (d.act n tx) (d.programPending a data)) ∨
    (∃ a, i = .encErase a ∧ d.busy = false ∧ d.wel = true ∧ d.Accepted (d.act n tx) (d.erasePending a)) := by
  cases i with
  | encWren => cases he; cases hb : d.busy <;> simp [hb]
  | encEnter4b => cases he; cases hb : d.busy <;> simp [hb]
  | encProg a data =>
    cases he
    rw [Device.act_encProg d n a data (beq_iff_eq.mp hwf)]
    rcases d.accept_cases n (d.programPending a data) with h | h
    · exact .inl h
    · exact .inr (.inr (.inr (.inl ⟨a, data, rfl, h⟩)))
  | encErase a =>
    cases he
    rw [Device.act_encErase]
    rcases d.accept_cases n (d.erasePending a) with h | h
    · exact .inl h
    · exact .inr (.inr (.inr (.inr ⟨a, rfl, h⟩)))
  | _ => cases he <;> exact .inl rfl

theorem Device.phase_of_idle {d : Device} (h : d.busy = false) : d.phase = .idle d.wel := by simp [Device.phase, h]

theorem Device.phase_of_busy {d : Device} (h : d.busy = true) : d.phase = .busy := by simp [Device.phase, h]

theorem Device.Accepted.phase {d e : Device} {p : Pending} (h : d.Accepted e p) : e.phase = .busy := by
  obtain ⟨n, rfl⟩ := h
  rfl

/-- The phases under a command alone, without the gap before it (10_state R36). -/
theorem Device.act_phase {i : Instr} {tx : List Byte} (hwf : WellFormed i) (he : encode i = .frame tx) (d : Device)
    (n : Nat) :
    (d.act n tx).phase = d.phase ∨
    (i = .encWren ∧ d.busy = false ∧ (d.act n tx).phase = .idle true) ∨
    (d.busy = false ∧ d.wel = true ∧ (d.act n tx).phase = .busy ∧
      ((∃ a data, i = .encProg a data) ∨ ∃ a, i = .encErase a)) := by
  rcases Device.act_cases hwf he d n with h | ⟨hi, hb, h⟩ | ⟨-, -, h⟩ | ⟨a, data, hi, hb, hw, h⟩ | ⟨a, hi, hb, hw, h⟩
  · exact .inl (by rw [h])
  · exact .inr (.inl ⟨hi, hb, by rw [h]; exact Device.phase_of_idle hb⟩)
  · exact .inl (by rw [h]; rfl)
  · exact .inr (.inr ⟨hb, hw, h.phase, .inl ⟨a, data, hi⟩⟩)
  · exact .inr (.inr ⟨hb, hw, h.phase, .inr ⟨a, hi⟩⟩)

/-- Settles O18: the gap leaves an idle device alone, keeps a busy one busy or completes it to Idle(false), and the
command then takes it on from there. -/
theorem devicePhaseTransitions : Obligations.DevicePhaseTransitions := by
  intro i s t hwire hrst henv hexec
  obtain ⟨hwf, tx, he, rfl⟩ := exec_wire_quiet hwire hrst hexec
  rw [State.xfer_dev_reference henv, State.elapse_dev_reference henv]
  have hact := Device.act_phase hwf he (s.dev.elapse s.draws) (s.draws + 1 + tx.length)
  rcases s.dev.elapse_cases s.draws with ⟨hb, hd⟩ | ⟨hb, k, -, hd⟩ | ⟨hb, hl, hd⟩ <;> rw [hd] at hact ⊢
  · rw [Device.phase_of_idle hb] at hact ⊢
    rcases hact with h | ⟨hi, -, h⟩ | ⟨-, hw, h, hi⟩
    · exact .inl h.symm
    · cases hw : s.dev.wel
      · exact .inr (.inl ⟨hi, rfl, h⟩)
      · exact .inl h.symm
    · exact .inr (.inr (.inl ⟨by rw [hw], h, hi⟩))
  · rcases hact with h | ⟨-, hf, -⟩ | ⟨hf, -⟩
    · exact .inl h.symm
    · exact absurd hb (by simpa using hf)
    · exact absurd hb (by simpa using hf)
  · rcases hact with h | ⟨hi, -, h⟩ | ⟨-, hf, -⟩
    · exact .inr (.inr (.inr ⟨Device.phase_of_busy hb, hl, .inl h⟩))
    · exact .inr (.inr (.inr ⟨Device.phase_of_busy hb, hl, .inr ⟨hi, h⟩⟩))
    · cases hf

end Sys2Proof.Machine
end

section
/-! PROOFS. What every instruction leaves unchanged when no pulse of RST is pending: an instruction is one transaction,
an answer without one, or a sequence that reaches its response (`Reached`), and each sequence is followed once. -/

namespace Sys2Proof.Machine

/-! ## The records from which the frames are put together -/

/-- `t` is reached from `s` by transactions, LOOP_S and LOOP_LAST perhaps written between them. -/
structure Worked (s t : State) : Prop where
  block : SameBlock s t
  rdata : t.rdata = s.rdata
  csN : t.csN = true
  sck : t.sck = false

/-- `t` is reached from `s` by transactions alone. -/
structure Exchanged (s t : State) : Prop extends Worked s t where
  loopS : t.loopS = s.loopS
  loopLast : t.loopLast = s.loopLast

theorem Worked.trans {s t u : State} (h : Worked s t) (g : Worked t u) : Worked s u :=
  ⟨h.block.trans g.block, g.rdata.trans h.rdata, g.csN, g.sck⟩

theorem Worked.of_setLoop {s t : State} {i last : BitVec 20} (h : Worked (s.setLoop i last) t) : Worked s t :=
  ⟨(SameBlock.mk rfl rfl rfl rfl rfl rfl rfl rfl : SameBlock s (s.setLoop i last)).trans h.block, h.rdata, h.csN, h.sck⟩

theorem Exchanged.after (s : State) (tx : List Byte) : Exchanged s (s.after tx) :=
  ⟨⟨SameBlock.after s tx, rfl, rfl, rfl⟩, rfl, rfl⟩

theorem Exchanged.trans {s t u : State} (h : Exchanged s t) (g : Exchanged t u) : Exchanged s u :=
  ⟨h.toWorked.trans g.toWorked, g.loopS.trans h.loopS, g.loopLast.trans h.loopLast⟩

/-- The sequence reaches its response, which is given in the state `u`. -/
def Prog.EndsIn (p : Prog) (s u : State) : Prop := ∃ ok c val, p.run s = u.writeResp ok c val

theorem Prog.respond_endsIn {u : State} (h : u.rstIn = none) (ok : Bool) (c : Cause) (val : BitVec 32) :
    (Prog.respond ok c val).EndsIn u u := ⟨ok, c, val, State.respond_quiet h ok c val⟩

theorem Prog.EndsIn.of_run_eq {p q : Prog} {s t u : State} (h : p.run s = q.run t) (g : q.EndsIn t u) :
    p.EndsIn s u := by
  obtain ⟨ok, c, val, hq⟩ := g
  exact ⟨ok, c, val, h.trans hq⟩

theorem Worked.rstIn {s t : State} (h : Worked s t) (hrst : s.rstIn = none) : t.rstIn = none :=
  h.block.rstIn.trans hrst

/-! ## The device during a sequence -/

/-- No gap can do anything to the device: it is idle, or no reference device answers. -/
def State.Still (s : State) : Prop := s.env = .reference → s.dev.busy = false

theorem State.Still.elapse_dev {s : State} (h : s.Still) : s.elapse.dev = s.dev := by
  cases he : s.env
  · exact State.elapse_dev_idle (h he)
  · exact State.elapse_dev_unconstrained he

/-- A transaction leaves the device as the gap before it left it, or the device acts on the frame. -/
theorem State.xfer_dev_cases (s : State) (tx : List Byte) :
    (s.xfer tx).dev = s.elapse.dev ∨ ∃ n, (s.xfer tx).dev = s.elapse.dev.act n tx := by
  cases he : s.env
  · exact .inr ⟨_, State.xfer_dev_reference he tx⟩
  · exact .inl (by rw [State.xfer_dev_unconstrained he, State.elapse_dev_unconstrained he])

theorem State.after_dev_cases (s : State) (tx : List Byte) :
    (s.after tx).dev = s.elapse.dev ∨ ∃ n, (s.after tx).dev = s.elapse.dev.act n tx :=
  s.xfer_dev_cases tx

/-- A frame the device does not act on leaves it as the gap before the frame left it. -/
theorem State.after_dev_of_act_eq {s : State} {tx : List Byte} (h : ∀ (d : Device) n, d.act n tx = d) :
    (s.after tx).dev = s.elapse.dev := by
  rcases s.after_dev_cases tx with hd | ⟨n, hd⟩
  · exact hd
  · rw [hd, h]

/-- After a busy check that passes nothing is left for a gap to do (20_memory R70). -/
theorem State.still_after_check {s : State} (hb : ¬ busyBit s.readsSr1 = true) : (s.after encSr1).Still := by
  intro he
  rw [State.after_env] at he
  rw [State.after_status_dev s (.inl rfl), ← State.busyBit_readsSr1 he]
  simpa using hb

/-- A frame that does not start a busy period keeps it so. -/
theorem State.Still.after {s : State} (h : s.Still) {tx : List Byte}
    (ht : ∀ (d : Device) n, (d.act n tx).busy = d.busy) : (s.after tx).Still := by
  intro he
  rw [State.after_env] at he
  rw [State.after_dev, State.xfer_dev_reference he, ht, h.elapse_dev]
  exact h he

/-- After a busy check that passes the next command finds the device as the check found it. -/
theorem State.elapse_dev_after_check {s : State} (hb : ¬ busyBit s.readsSr1 = true) :
    (s.after encSr1).elapse.dev = s.elapse.dev := by
  rw [(State.still_after_check hb).elapse_dev, State.after_status_dev s (.inl rfl)]

/-- A busy check that passes, a command that starts no busy period, and a status read: the device has acted on the
command at most. -/
theorem State.dev_after_reread {s : State} (hb : ¬ busyBit s.readsSr1 = true) {command frame : List Byte}
    (hc : ∀ (d : Device) n, (d.act n command).busy = d.busy)
    (hf : frame = encSr1 ∨ frame = encSr2 ∨ frame = encSr3) :
    (((s.after encSr1).after command).after frame).dev = s.elapse.dev ∨
    ∃ n, (((s.after encSr1).after command).after frame).dev = s.elapse.dev.act n command := by
  rw [State.after_status_dev _ hf, ((State.still_after_check hb).after hc).elapse_dev,
    ← State.elapse_dev_after_check hb]
  exact State.after_dev_cases _ _

/-! ## Each sequence followed once -/

theorem srQuery_endsIn {s : State} (hrst : s.rstIn = none) {frame : List Byte}
    (hf : frame = encSr1 ∨ frame = encSr2 ∨ frame = encSr3) {k : Byte → Prog}
    (hk : ∀ b, ∃ ok c val, k b = .respond ok c val) :
    ∃ u, (srQuery frame k).EndsIn s u ∧ Exchanged s u ∧ u.dev = s.elapse.dev := by
  have hused : ∀ rx, misoUsed frame rx = [rx.getD 1 0] := by rcases hf with rfl | rfl | rfl <;> exact fun _ => rfl
  refine ⟨s.after frame, .of_run_eq (srQuery_run_quiet hrst frame hused k) ?_, Exchanged.after s frame,
    State.after_status_dev s hf⟩
  obtain ⟨ok, c, val, hr⟩ := hk ((s.elapse.answer frame).getD 1 0)
  rw [hr]
  exact Prog.respond_endsIn (by simp [hrst]) ok c val

/-- A mode-setting sequence: the busy check, then the command and the read that verifies it (42_command_issuer R150). -/
theorem endsIn_of_reread {s : State} (hrst : s.rstIn = none) {p : Prog} {command frame : List Byte} {bit : Bool}
    (hc : ∀ (d : Device) n, (d.act n command).busy = d.busy)
    (hf : frame = encSr1 ∨ frame = encSr2 ∨ frame = encSr3)
    (hrun : p.run s =
      if busyBit s.readsSr1 then (respondPlain false .busy).run (s.after encSr1)
      else if bit then (respondPlain true .none).run (((s.after encSr1).after command).after frame)
      else (respondPlain false .verifyFailed).run (((s.after encSr1).after command).after frame)) :
    ∃ u, p.EndsIn s u ∧ Exchanged s u ∧ (u.dev = s.elapse.dev ∨ ∃ n, u.dev = s.elapse.dev.act n command) := by
  split at hrun
  · exact ⟨_, .of_run_eq hrun (Prog.respond_endsIn (by simp [hrst]) _ _ _), Exchanged.after _ _,
      .inl (State.after_status_dev s (.inl rfl))⟩
  · next hb =>
    refine ⟨((s.after encSr1).after command).after frame, ?_,
      ((Exchanged.after _ _).trans (Exchanged.after _ _)).trans (Exchanged.after _ _),
      State.dev_after_reread hb hc hf⟩
    split at hrun <;> exact .of_run_eq hrun (Prog.respond_endsIn (by simp [hrst]) _ _ _)

theorem enter4bSeq_endsIn {s : State} (hrst : s.rstIn = none) :
    ∃ u, (enter4bSeq respondPlain).EndsIn s u ∧ Exchanged s u ∧
      (u.dev = s.elapse.dev ∨ u.dev = { s.elapse.dev with ads := true }) := by
  have hact (d : Device) (n : Nat) : d.act n encEnter4b = d ∨ d.act n encEnter4b = { d with ads := true } := by
    rw [Device.act_encEnter4b]
    split <;> simp
  obtain ⟨u, he, hx, hd⟩ := endsIn_of_reread hrst (fun d n => by rcases hact d n with h | h <;> rw [h])
    (.inr (.inr rfl)) (enter4bSeq_run_quiet hrst respondPlain)
  exact ⟨u, he, hx, hd.elim .inl fun ⟨n, h⟩ => h ▸ hact _ n⟩

theorem enableWriteSeq_endsIn {s : State} (hrst : s.rstIn = none) :
    ∃ u, (enableWriteSeq respondPlain).EndsIn s u ∧ Exchanged s u ∧
      (u.dev = s.elapse.dev ∨ u.dev = { s.elapse.dev with wel := true }) := by
  have hact (d : Device) (n : Nat) : d.act n encWren = d ∨ d.act n encWren = { d with wel := true } := by
    rw [Device.act_encWren]
    split <;> simp
  obtain ⟨u, he, hx, hd⟩ := endsIn_of_reread hrst (fun d n => by rcases hact d n with h | h <;> rw [h])
    (.inl rfl) (enableWriteSeq_run_quiet hrst respondPlain)
  exact ⟨u, he, hx, hd.elim .inl fun ⟨n, h⟩ => h ▸ hact _ n⟩

theorem readIdSeq_endsIn {s : State} (hrst : s.rstIn = none) {k : Bool → Cause → Byte → Prog}
    (hk : ∀ ok c v, ∃ ok' c' val, k ok c v = .respond ok' c' val) :
    ∃ u, (readIdSeq k).EndsIn s u ∧ Exchanged s u ∧ u.dev = s.elapse.dev := by
  have ends : ∀ {u : State} ok c v, u.rstIn = none → (k ok c v).EndsIn u u := fun ok c v hu => by
    obtain ⟨ok', c', val, hr⟩ := hk ok c v
    rw [hr]
    exact Prog.respond_endsIn hu ok' c' val
  have hrun := readIdSeq_run_quiet hrst k
  split at hrun
  · exact ⟨_, .of_run_eq hrun (ends _ _ _ (by simp [hrst])), Exchanged.after _ _, State.after_status_dev s (.inl rfl)⟩
  · next hb =>
    refine ⟨_, .of_run_eq hrun (ends _ _ _ (by simp [hrst])), (Exchanged.after _ _).trans (Exchanged.after _ _), ?_⟩
    rw [State.after_dev_of_act_eq Device.act_encId, State.elapse_dev_after_check hb]

theorem State.emit_nil (s : State) : s.emit [] = s := by simp [State.emit]

/-- The data of a read is all that goes to RDATA. -/
theorem readRawSeq_endsIn {s : State} (hrst : s.rstIn = none) (a : BitVec 32) (n : Nat) :
    ∃ u bytes, (readRawSeq a n respondPlain).EndsIn s (u.emit bytes) ∧ Exchanged s u ∧ u.dev = s.elapse.dev := by
  have hrun := readRawSeq_run_quiet hrst a n respondPlain
  split at hrun
  · refine ⟨s.after encSr1, [], .of_run_eq (t := (s.after encSr1).emit []) (q := respondPlain false .busy) ?_
      (Prog.respond_endsIn (by simp [hrst]) _ _ _), Exchanged.after _ _, State.after_status_dev s (.inl rfl)⟩
    rw [hrun, State.emit_nil]
  · next hb =>
    refine ⟨_, _, .of_run_eq hrun (Prog.respond_endsIn (by simp [hrst]) _ _ _),
      (Exchanged.after _ _).trans (Exchanged.after _ _), ?_⟩
    rw [State.after_dev_of_act_eq (fun d n => Device.act_encRead d n _ _), State.elapse_dev_after_check hb]

/-- The sequence of a program or an erase goes on with its result where the device has acted on the command at most. -/
theorem guardedSeq_reaches {s : State} (hrst : s.rstIn = none) (command : List Byte) (k : Bool → Cause → Prog) :
    ∃ ok c u, (guardedSeq command k).run s = (k ok c).run u ∧ Exchanged s u ∧
      (u.dev = s.elapse.dev ∨ ∃ n, u.dev = s.elapse.dev.act n command) := by
  have hrun := guardedSeq_run_quiet hrst command k
  split at hrun
  · exact ⟨_, _, _, hrun, Exchanged.after _ _, .inl (State.after_status_dev s (.inl rfl))⟩
  · next hb =>
    have hdev : ((s.after encSr1).after encSr1).dev = s.elapse.dev := by
      rw [State.after_status_dev _ (.inl rfl), State.elapse_dev_after_check hb]
    split at hrun
    · refine ⟨_, _, _, hrun, ((Exchanged.after _ _).trans (Exchanged.after _ _)).trans (Exchanged.after _ _), ?_⟩
      have hstill : ((s.after encSr1).after encSr1).Still :=
        (State.still_after_check hb).after fun d n => by rw [Device.act_encSr1]
      rw [← hdev, ← hstill.elapse_dev]
      exact State.after_dev_cases _ _
    · exact ⟨_, _, _, hrun, (Exchanged.after _ _).trans (Exchanged.after _ _), .inl hdev⟩

theorem guardedSeq_endsIn {s : State} (hrst : s.rstIn = none) (command : List Byte) :
    ∃ u, (guardedSeq command respondPlain).EndsIn s u ∧ Exchanged s u ∧
      (u.dev = s.elapse.dev ∨ ∃ n, u.dev = s.elapse.dev.act n command) := by
  obtain ⟨ok, c, u, hrun, hx, hd⟩ := guardedSeq_reaches hrst command respondPlain
  exact ⟨u, .of_run_eq hrun (Prog.respond_endsIn (hx.rstIn hrst) _ _ _), hx, hd⟩

/-! ## ERASE_UP_TO_PAGE (44_sequencer R184) -/

/-- One round leads to what follows it. -/
theorem eraseLoop_reaches (last : BitVec 20) (n : Nat) {s : State} (hrst : s.rstIn = none) :
    ∃ ok c u, (eraseLoop last n).run s = (eraseNext last n ok c).run u ∧ Worked s u := by
  obtain ⟨ok, c, u, hrun, hx, -⟩ := guardedSeq_reaches (s := s.setLoop (last - BitVec.ofNat 20 n) last) hrst
    (encErase (sectorAddress (last - BitVec.ofNat 20 n))) (eraseNext last n)
  exact ⟨ok, c, u, (eraseLoop_run last n s).trans hrun, hx.toWorked.of_setLoop⟩

theorem eraseLoop_endsIn (last : BitVec 20) (n : Nat) {s : State} (hrst : s.rstIn = none) :
    ∃ u, (eraseLoop last n).EndsIn s u ∧ Worked s u := by
  induction n generalizing s with
  | zero =>
    obtain ⟨ok, c, u, hrun, hw⟩ := eraseLoop_reaches last 0 hrst
    refine ⟨u, .of_run_eq hrun ?_, hw⟩
    cases ok <;> exact Prog.respond_endsIn (hw.rstIn hrst) _ _ _
  | succ n ih =>
    obtain ⟨ok, c, u, hrun, hw⟩ := eraseLoop_reaches last (n + 1) hrst
    cases ok with
    | false => exact ⟨u, .of_run_eq hrun (Prog.respond_endsIn (hw.rstIn hrst) _ _ _), hw⟩
    | true =>
      obtain ⟨v, hv, hv'⟩ := ih (hw.rstIn hrst)
      exact ⟨v, .of_run_eq hrun hv, hw.trans hv'⟩

/-- With no reference device that answers, no sequence reaches the device. -/
theorem Prog.run_dev_unconstrained (p : Prog) {s : State} (henv : s.env = .unconstrained) :
    (p.run s).dev = s.dev := by
  refine (Prog.run_keeps (P := fun t => t.env = .unconstrained ∧ t.dev = s.dev) ?_ ?_ (fun _ _ h => h)
    (fun _ _ h => h) (fun _ _ _ h => h) (fun _ _ _ _ _ h => h) p s ⟨henv, rfl⟩).2
  · intro t p tx ⟨he, hd⟩
    exact ⟨he, (State.xfer_dev_unconstrained (s := { t with rstIn := p }) he tx).trans hd⟩
  · intro t tx bits hold ⟨he, hd⟩
    refine ⟨he, ?_⟩
    simp [State.truncate, he, State.elapse_dev_unconstrained he, hd]

theorem eraseNext_false_dev (last : BitVec 20) (n : Nat) (c : Cause) {u : State} (hu : u.rstIn = none) :
    ((eraseNext last n false c).run u).dev = u.dev := by
  cases n <;> exact State.respond_dev hu _ _ _

/-- A round that the reference device refuses leaves it as the gap before the round left it. -/
theorem eraseLoop_dev_refused (last : BitVec 20) (n : Nat) {s : State} (hrst : s.rstIn = none)
    (henv : s.env = .reference) (h : s.elapse.dev.busy = true ∨ s.elapse.dev.wel = false) :
    ((eraseLoop last n).run s).dev = s.elapse.dev := by
  rw [eraseLoop_run]
  cases hb : s.elapse.dev.busy
  · have hw : s.elapse.dev.wel = false := h.resolve_left (by simp [hb])
    rw [guardedSeq_run_disabled (s := s.setLoop _ last) hrst henv hb hw,
      eraseNext_false_dev _ _ _ (by simpa using hrst),
      State.after_status_dev _ (.inl rfl), State.after_status_elapse_dev (s := s.setLoop _ last) (.inl rfl) hb]
    rfl
  · rw [guardedSeq_run_busy (s := s.setLoop _ last) hrst henv hb, eraseNext_false_dev _ _ _ (by simpa using hrst),
      State.after_status_dev _ (.inl rfl)]
    rfl

/-- Once an erase has been accepted no round passes its checks: the device is busy, or it has completed and its WEL is
clear (20_memory R70). -/
theorem eraseLoop_dev_accepted (last : BitVec 20) (n : Nat) {s : State} (hrst : s.rstIn = none)
    (henv : s.env = .reference) {d : Device} {p : Pending} (h : d.Accepted s.dev p) :
    d.Accepted ((eraseLoop last n).run s).dev p ∨ ∃ m, ((eraseLoop last n).run s).dev = s.dev.complete m := by
  obtain ⟨len, he⟩ := h
  have hgap := State.elapse_dev_reference henv
  rcases s.dev.elapse_cases s.draws with ⟨hb, -⟩ | ⟨hb, k, -, hd⟩ | ⟨hb, -, hd⟩ <;> rw [he] at hb
  · cases hb
  · rw [eraseLoop_dev_refused last n hrst henv (.inl (by rw [hgap, hd, he])), hgap, hd, he]
    exact .inl ⟨k, rfl⟩
  · rw [eraseLoop_dev_refused last n hrst henv (.inr (by rw [hgap, hd]; rfl)), hgap, hd]
    exact .inr ⟨_, rfl⟩

theorem Device.accepted_accept {d : Device} (hb : d.busy = false) (hw : d.wel = true) (n : Nat) (p : Pending) :
    d.Accepted (d.accept n p) p :=
  ⟨Config.busyTime n, by simp [Device.accept, hb, hw]⟩

/-- A round whose checks pass starts the erase of its sector. -/
theorem eraseLoop_ready (last : BitVec 20) (n : Nat) {s : State} (hrst : s.rstIn = none) (henv : s.env = .reference)
    (hb : s.elapse.dev.busy = false) (hw : s.elapse.dev.wel = true) :
    ∃ u, (eraseLoop last n).run s = (eraseNext last n true .none).run u ∧ u.rstIn = none ∧ u.env = .reference ∧
      s.elapse.dev.Accepted u.dev (s.elapse.dev.erasePending (sectorAddress (last - BitVec.ofNat 20 n))) := by
  have hrun := guardedSeq_run_ready (s := s.setLoop (last - BitVec.ofNat 20 n) last) hrst henv hb hw
    (encErase (sectorAddress (last - BitVec.ofNat 20 n))) (eraseNext last n)
  obtain ⟨m, hdev⟩ := State.after_checks_dev (s := s.setLoop (last - BitVec.ofNat 20 n) last) henv hb
    (encErase (sectorAddress (last - BitVec.ofNat 20 n)))
  refine ⟨_, (eraseLoop_run last n s).trans hrun, by simpa using hrst, by simpa using henv, ?_⟩
  rw [hdev, Device.act_encErase]
  exact Device.accepted_accept hb hw m _

/-- The whole loop: the erase of its first sector at most, and its completion where another sector is to come. -/
theorem eraseLoop_dev (last : BitVec 20) (n : Nat) {s : State} (hrst : s.rstIn = none) :
    ((eraseLoop last n).run s).dev = s.elapse.dev ∨
    ∃ e, s.elapse.dev.Accepted e (s.elapse.dev.erasePending (sectorAddress (last - BitVec.ofNat 20 n))) ∧
      (((eraseLoop last n).run s).dev = e ∨ (0 < n ∧ ∃ m, ((eraseLoop last n).run s).dev = e.complete m)) := by
  cases henv : s.env with
  | unconstrained => exact .inl ((Prog.run_dev_unconstrained _ henv).trans (State.elapse_dev_unconstrained henv).symm)
  | reference =>
    by_cases href : s.elapse.dev.busy = true ∨ s.elapse.dev.wel = false
    · exact .inl (eraseLoop_dev_refused last n hrst henv href)
    · obtain ⟨hb, hw⟩ : s.elapse.dev.busy = false ∧ s.elapse.dev.wel = true := by simpa using href
      obtain ⟨u, hrun, hu, he, hacc⟩ := eraseLoop_ready last n hrst henv hb hw
      rw [hrun]
      cases n with
      | zero => exact .inr ⟨u.dev, hacc, .inl (State.respond_dev hu _ _ _)⟩
      | succ n =>
        rcases eraseLoop_dev_accepted last n hu he hacc with h | ⟨m, h⟩
        · exact .inr ⟨_, h, .inl rfl⟩
        · exact .inr ⟨u.dev, hacc, .inr ⟨Nat.succ_pos n, m, h⟩⟩

theorem sectorNumberFromPage_toNat (p : BitVec 24) : (sectorNumberFromPage p).toNat = p.toNat / 16 := by
  have := p.isLt
  simp only [sectorNumberFromPage, BitVec.toNat_setWidth, BitVec.toNat_ushiftRight, Nat.shiftRight_eq_div_pow]
  omega

/-- ERASE_UP_TO_PAGE begins with sector 0. -/
theorem eraseUpToPage_dev (p : BitVec 24) {s : State} (hrst : s.rstIn = none) :
    ((eraseUpToPageProg p).run s).dev = s.elapse.dev ∨
    ∃ e, s.elapse.dev.Accepted e (s.elapse.dev.erasePending 0) ∧
      (((eraseUpToPageProg p).run s).dev = e ∨
        (16 ≤ p.toNat ∧ ∃ m, ((eraseUpToPageProg p).run s).dev = e.complete m)) := by
  have h := eraseLoop_dev (sectorNumberFromPage p) (sectorNumberFromPage p).toNat hrst
  rw [BitVec.ofNat_toNat, BitVec.setWidth_eq, BitVec.sub_self, sectorNumberFromPage_toNat] at h
  have hmore : 0 < p.toNat / 16 ↔ 16 ≤ p.toNat := by omega
  rw [hmore] at h
  rw [eraseUpToPageProg, sectorNumberFromPage_toNat]
  exact h

/-! ## Every instruction (10_state R21 to R29, 20_memory R60 to R70) -/

/-- What an instruction can make `e` of the device that the gap before it has left as `d`: nothing else than its own
mark, program or erase. `wdata` is the latched data. -/
def InstrEffect (i : Instr) (wdata : Page) (d e : Device) : Prop :=
  e = d ∨
  match i with
  | .begin | .enter4b | .encEnter4b => e = { d with ads := true }
  | .enableWrite | .encWren => e = { d with wel := true }
  | .encProg a data => d.Accepted e (d.programPending a data)
  | .encErase a | .eraseSector a => d.Accepted e (d.erasePending a)
  | .programPage a => d.Accepted e (d.programPending a wdata.toList)
  | .writePage p => d.Accepted e (d.programPending (pageAddress p) wdata.toList)
  | .sectorErase m => d.Accepted e (d.erasePending (sectorAddress m))
  | .eraseUpToPage p => ∃ f, d.Accepted f (d.erasePending 0) ∧ (e = f ∨ (16 ≤ p.toNat ∧ ∃ n, e = f.complete n))
  | _ => False

/-- An operation with transactions leads from `s` to `u`, in which its response is given. -/
structure Reached (i : Instr) (s u : State) : Prop where
  block : SameBlock s u
  csN : u.csN = true
  sck : u.sck = false
  loop : (∀ p, i ≠ .eraseUpToPage p) → u.loopS = s.loopS ∧ u.loopLast = s.loopLast
  rdata : (∀ a n, i ≠ .readRaw a n) → (∀ p, i ≠ .readPage p) → u.rdata = s.rdata
  dev : InstrEffect i s.wdata s.elapse.dev u.dev

theorem SameBlock.of_start {s u : State} (h : SameBlock s.start u) : SameBlock s u := (Via.start s).block.trans h

theorem Exchanged.reached {i : Instr} {s u : State} (h : Exchanged s.start u)
    (hd : InstrEffect i s.wdata s.elapse.dev u.dev) : Reached i s u :=
  ⟨h.block.of_start, h.csN, h.sck, fun _ => ⟨h.loopS, h.loopLast⟩, fun _ _ => h.rdata, hd⟩

/-- A read is the one kind of sequence that writes RDATA. -/
theorem Exchanged.reached_emit {i : Instr} {s u : State} {bytes : List Byte} (h : Exchanged s.start u)
    (hi : (∃ a n, i = .readRaw a n) ∨ ∃ p, i = .readPage p) (hd : u.dev = s.elapse.dev) :
    Reached i s (u.emit bytes) := by
  refine ⟨⟨h.block.of_start.req, h.block.of_start.wdata, h.block.of_start.sckHz, h.block.of_start.csId,
    h.block.of_start.env, h.block.of_start.host, h.block.of_start.rstIn, h.block.of_start.rstHeld⟩, h.csN, h.sck,
    fun _ => ⟨h.loopS, h.loopLast⟩, fun hraw hpage => ?_, .inl hd⟩
  rcases hi with ⟨a, n, hi⟩ | ⟨p, hi⟩
  · exact absurd hi (hraw a n)
  · exact absurd hi (hpage p)

/-- The translator operations, which send no transaction (43_address_translator). -/
def IsTranslator (i : Instr) : Prop := (∃ p, i = .pageAddr p) ∨ (∃ m, i = .sectorAddr m) ∨ ∃ p, i = .sectorOfPage p

theorem act_encProg_eq_or_accepted {d e : Device} {a : BitVec 32} {data : Page}
    (h : e = d ∨ ∃ n, e = d.act n (encProg a data.toList)) :
    e = d ∨ d.Accepted e (d.programPending a data.toList) := by
  rcases h with h | ⟨n, rfl⟩
  · exact .inl h
  · rw [Device.act_encProg d n a data.toList (by simp)]
    exact (d.accept_cases n _).imp_right fun h => h.2.2

theorem act_encErase_eq_or_accepted {d e : Device} {a : BitVec 32} (h : e = d ∨ ∃ n, e = d.act n (encErase a)) :
    e = d ∨ d.Accepted e (d.erasePending a) := by
  rcases h with h | ⟨n, rfl⟩
  · exact .inl h
  · rw [Device.act_encErase]
    exact (d.accept_cases n _).imp_right fun h => h.2.2

theorem srQuery_reached (i : Instr) {s : State} (hrst : s.rstIn = none) {frame : List Byte} {k : Byte → Prog}
    (hf : frame = encSr1 ∨ frame = encSr2 ∨ frame = encSr3) (hk : ∀ b, ∃ ok c val, k b = .respond ok c val) :
    ∃ u, (srQuery frame k).EndsIn s.start u ∧ Reached i s u := by
  obtain ⟨u, he, hx, hd⟩ := srQuery_endsIn (s := s.start) hrst hf hk
  exact ⟨u, he, hx.reached (.inl hd)⟩

theorem readIdSeq_reached (i : Instr) {s : State} (hrst : s.rstIn = none) {k : Bool → Cause → Byte → Prog}
    (hk : ∀ ok c v, ∃ ok' c' val, k ok c v = .respond ok' c' val) :
    ∃ u, (readIdSeq k).EndsIn s.start u ∧ Reached i s u := by
  obtain ⟨u, he, hx, hd⟩ := readIdSeq_endsIn (s := s.start) hrst hk
  exact ⟨u, he, hx.reached (.inl hd)⟩

theorem readRawSeq_reached {i : Instr} {s : State} (hrst : s.rstIn = none) (a : BitVec 32) (n : Nat)
    (hi : (∃ a n, i = .readRaw a n) ∨ ∃ p, i = .readPage p) :
    ∃ u, (readRawSeq a n respondPlain).EndsIn s.start u ∧ Reached i s u := by
  obtain ⟨u, bytes, he, hx, hd⟩ := readRawSeq_endsIn (s := s.start) hrst a n
  exact ⟨u.emit bytes, he, hx.reached_emit hi hd⟩

theorem guardedSeq_reached {i : Instr} {s : State} (hrst : s.rstIn = none) {command : List Byte}
    (hc : ∀ e, (e = s.elapse.dev ∨ ∃ n, e = s.elapse.dev.act n command) → InstrEffect i s.wdata s.elapse.dev e) :
    ∃ u, (guardedSeq command respondPlain).EndsIn s.start u ∧ Reached i s u := by
  obtain ⟨u, he, hx, hd⟩ := guardedSeq_endsIn (s := s.start) hrst command
  exact ⟨u, he, hx.reached (hc u.dev hd)⟩

theorem eraseUpToPage_reached (p : BitVec 24) {s : State} (hrst : s.rstIn = none) :
    ∃ u, (eraseUpToPageProg p).EndsIn s.start u ∧ Reached (.eraseUpToPage p) s u := by
  obtain ⟨u, ⟨ok, c, val, hrun⟩, hw⟩ :=
    eraseLoop_endsIn (sectorNumberFromPage p) (sectorNumberFromPage p).toNat (s := s.start) hrst
  have hd := eraseUpToPage_dev p (s := s.start) hrst
  rw [show (eraseUpToPageProg p).run s.start = u.writeResp ok c val from hrun] at hd
  exact ⟨u, ⟨ok, c, val, hrun⟩, hw.block.of_start, hw.csN, hw.sck, fun h => absurd rfl (h p), fun _ _ => hw.rdata, hd⟩

/-- With no pulse of RST pending an operation of the host that is none of the translator's is a sequence of
transactions, and then its response. -/
theorem opProg_reached {i : Instr} {s : State} {p : Prog} (hp : opProg i s.wdata = some p) (hrst : s.rstIn = none)
    (hi : ¬ IsTranslator i) : ∃ u, p.EndsIn s.start u ∧ Reached i s u := by
  cases i with
  | encSr1 | encSr2 | encSr3 | encEnter4b | encWren | encId | encRead | encProg | encErase => cases hp
  | begin | enter4b =>
    cases hp
    obtain ⟨u, he, hx, hd⟩ := enter4bSeq_endsIn (s := s.start) hrst
    exact ⟨u, he, hx.reached hd⟩
  | enableWrite =>
    cases hp
    obtain ⟨u, he, hx, hd⟩ := enableWriteSeq_endsIn (s := s.start) hrst
    exact ⟨u, he, hx.reached hd⟩
  | readSr1 => cases hp; exact srQuery_reached _ hrst (.inl rfl) fun _ => ⟨_, _, _, rfl⟩
  | readSr2 => cases hp; exact srQuery_reached _ hrst (.inr (.inl rfl)) fun _ => ⟨_, _, _, rfl⟩
  | readSr3 => cases hp; exact srQuery_reached _ hrst (.inr (.inr rfl)) fun _ => ⟨_, _, _, rfl⟩
  | busy => cases hp; rw [busyProg, busyQ]; exact srQuery_reached _ hrst (.inl rfl) fun _ => ⟨_, _, _, rfl⟩
  | writeEnabled =>
    cases hp; rw [writeEnabledProg, welQ]; exact srQuery_reached _ hrst (.inl rfl) fun _ => ⟨_, _, _, rfl⟩
  | addrMode4b =>
    cases hp; rw [addrMode4bProg, adsQ]; exact srQuery_reached _ hrst (.inr (.inr rfl)) fun _ => ⟨_, _, _, rfl⟩
  | readId | works => cases hp; exact readIdSeq_reached _ hrst fun _ _ _ => ⟨_, _, _, rfl⟩
  | readRaw a n => cases hp; exact readRawSeq_reached hrst _ _ (.inl ⟨a, n, rfl⟩)
  | readPage q => cases hp; exact readRawSeq_reached hrst _ _ (.inr ⟨q, rfl⟩)
  | programPage | writePage => cases hp; exact guardedSeq_reached hrst fun _ => act_encProg_eq_or_accepted
  | eraseSector | sectorErase => cases hp; exact guardedSeq_reached hrst fun _ => act_encErase_eq_or_accepted
  | eraseUpToPage q => cases hp; exact eraseUpToPage_reached q hrst
  | pageAddr q => exact absurd (.inl ⟨q, rfl⟩) hi
  | sectorAddr m => exact absurd (.inr (.inl ⟨m, rfl⟩)) hi
  | sectorOfPage q => exact absurd (.inr (.inr ⟨q, rfl⟩)) hi

/-- What a wire command does to the device is its effect. -/
theorem wire_effect {i : Instr} {tx : List Byte} (hwf : WellFormed i) (he : encode i = .frame tx) (s : State) :
    InstrEffect i s.wdata s.elapse.dev (s.xfer tx).dev := by
  rcases s.xfer_dev_cases tx with h | ⟨n, h⟩ <;> rw [h]
  · exact .inl rfl
  · rcases Device.act_cases hwf he s.elapse.dev n with h | ⟨rfl, -, h⟩ | ⟨rfl, -, h⟩ | ⟨a, data, rfl, -, -, h⟩ |
      ⟨a, rfl, -, -, h⟩
    · exact .inl h
    all_goals exact .inr h

theorem opProg_of_not_wire {i : Instr} (h : i.isWire = false) (d : Page) : ∃ p, opProg i d = some p := by
  cases i with
  | encSr1 | encSr2 | encSr3 | encEnter4b | encWren | encId | encRead | encProg | encErase => cases h
  | _ => exact ⟨_, rfl⟩

theorem IsTranslator.not_wire {i : Instr} (h : IsTranslator i) : i.isWire = false := by
  rcases h with ⟨q, rfl⟩ | ⟨m, rfl⟩ | ⟨q, rfl⟩ <;> rfl

/-- Everything an instruction can be with no pulse of RST pending: one transaction, an answer without one, or a sequence
of transactions that reaches its response. -/
theorem exec_cases {i : Instr} {s t : State} (hrst : s.rstIn = none) (h : exec i s = .next t) :
    (i.isWire = true ∧ ∃ tx, t = s.xfer tx ∧ InstrEffect i s.wdata s.elapse.dev t.dev) ∨
    (IsTranslator i ∧ ∃ ok c val, t = s.start.writeResp ok c val) ∨
    (i.isWire = false ∧ ¬ IsTranslator i ∧ ∃ u ok c val, t = u.writeResp ok c val ∧ Reached i s u) := by
  cases hwire : i.isWire
  · obtain ⟨p, hp⟩ := opProg_of_not_wire hwire s.wdata
    rw [exec_of_opProg hp] at h
    cases h
    by_cases hi : IsTranslator i
    · refine .inr (.inl ⟨hi, ?_⟩)
      rcases hi with ⟨q, rfl⟩ | ⟨m, rfl⟩ | ⟨q, rfl⟩ <;> cases hp <;>
        exact Prog.respond_endsIn (u := s.start) hrst _ _ _
    · obtain ⟨u, ⟨ok, c, val, he⟩, hr⟩ := opProg_reached hp hrst hi
      exact .inr (.inr ⟨rfl, hi, u, ok, c, val, he, hr⟩)
  · obtain ⟨hwf, tx, he, rfl⟩ := exec_wire_quiet hwire hrst h
    exact .inl ⟨rfl, tx, rfl, wire_effect hwf he s⟩

/-- Settles O37: a transaction, an answer without one and a sequence each keep what they must. -/
theorem instructionsKeepTheBlock : Obligations.InstructionsKeepTheBlock := by
  intro i s t hrst hexec
  rcases exec_cases hrst hexec with ⟨hwire, tx, rfl, -⟩ | ⟨hi, ok, c, val, rfl⟩ | ⟨hhost, -, u, ok, c, val, rfl, hu⟩
  · exact ⟨⟨rfl, rfl, rfl, rfl, rfl, rfl, rfl, rfl⟩, fun _ => ⟨rfl, rfl⟩, fun _ _ => rfl, fun _ => ⟨rfl, rfl, rfl, rfl⟩,
      .inl ⟨rfl, rfl⟩⟩
  · exact ⟨⟨rfl, rfl, rfl, rfl, rfl, rfl, rfl, rfl⟩, fun _ => ⟨rfl, rfl⟩, fun _ _ => rfl,
      fun hwire => by simp [hi.not_wire] at hwire, .inr ⟨hi, rfl, rfl, rfl, rfl⟩⟩
  · exact ⟨hu.block.trans ⟨rfl, rfl, rfl, rfl, rfl, rfl, rfl, rfl⟩, hu.loop, hu.rdata,
      fun hwire => by simp [hhost] at hwire, .inl ⟨hu.csN, hu.sck⟩⟩

/-! ## The device and its array -/

/-- Every instruction keeps the constants of the device (20_memory R60). -/
theorem exec_same_device {i : Instr} {s t : State} (h : exec i s = .next t) : SameDevice s.dev t.dev := by
  cases hwire : i.isWire
  · obtain ⟨p, hp⟩ := opProg_of_not_wire hwire s.wdata
    rw [exec_of_opProg hp] at h
    cases h
    obtain ⟨-, -, -, hdev⟩ := (SameConfig.refl s.start).run p
    exact hdev
  · obtain ⟨tx, he⟩ := frame_of_isWire hwire
    rw [exec_of_frame (wellFormed_of_exec h) he] at h
    cases h
    obtain ⟨-, -, -, hdev⟩ := (SameConfig.refl s).transact tx
    exact hdev

/-- No effect reaches the array but the completion of the first erase of ERASE_UP_TO_PAGE. -/
theorem InstrEffect.array {i : Instr} {wdata : Page} {d e : Device} (h : InstrEffect i wdata d e) :
    e.array = d.array ∨
    ∃ p f n, i = .eraseUpToPage p ∧ 16 ≤ p.toNat ∧ d.Accepted f (d.erasePending 0) ∧ e = f.complete n := by
  have accepted {p : Pending} {f : Device} (h : d.Accepted f p) : f.array = d.array := by
    obtain ⟨n, rfl⟩ := h
    rfl
  rcases h with rfl | h
  · exact .inl rfl
  · cases i with
    | begin | enter4b | encEnter4b | enableWrite | encWren => cases h; exact .inl rfl
    | encProg | encErase | programPage | eraseSector | writePage | sectorErase => exact .inl (accepted h)
    | eraseUpToPage p =>
      obtain ⟨f, hf, rfl | ⟨hp, n, he⟩⟩ := h
      · exact .inl (accepted hf)
      · exact .inr ⟨p, f, n, rfl, hp, hf, he⟩
    | _ => exact h.elim

/-- The completed erase of sector 0 leaves all other bytes (20_memory R59). -/
theorem Device.read_complete_erase_zero {d f : Device} (hwf : d.array.wf = true) (hf : d.Accepted f (.erase 0))
    (n : Nat) {x : Nat} (hx : 4096 ≤ x) : (f.complete n).array.read x = d.array.read x := by
  obtain ⟨len, rfl⟩ := hf
  exact (Flash.read_eraseSector hwf _ 0 x).trans (if_neg (by omega))

/-- Settles O38: the effect of each instruction, and of every effect the array. -/
theorem instructionsKeepTheDevice : Obligations.InstructionsKeepTheDevice := by
  intro i s t hrst hexec d
  have hcases : (IsTranslator i ∧ t.dev = s.dev) ∨ (¬ IsTranslator i ∧ InstrEffect i s.wdata d t.dev) := by
    rcases exec_cases hrst hexec with ⟨hwire, tx, -, h⟩ | ⟨hi, ok, c, val, rfl⟩ | ⟨-, hi, u, ok, c, val, rfl, hu⟩
    · exact .inr ⟨fun hi => by simp [hi.not_wire] at hwire, h⟩
    · exact .inl ⟨hi, rfl⟩
    · exact .inr ⟨hi, hu.dev⟩
  have harray (hidle : s.dev.busy = false) : t.dev.array = s.dev.array ∨
      ∃ p f n, i = .eraseUpToPage p ∧ 16 ≤ p.toNat ∧ s.dev.Accepted f (s.dev.erasePending 0) ∧
        t.dev = f.complete n := by
    rcases hcases with ⟨-, h⟩ | ⟨-, h⟩
    · exact .inl (by rw [h])
    · have hd : d = s.dev := State.elapse_dev_idle hidle
      rw [hd] at h
      exact h.array
  refine ⟨exec_same_device hexec, ?_, fun hsmall hidle x => ?_, fun p hi hidle hwf hpend x hx => ?_⟩
  · rcases hcases with ⟨⟨q, rfl⟩ | ⟨m, rfl⟩ | ⟨q, rfl⟩, h⟩ | ⟨hi, h⟩
    · exact h
    · exact h
    · exact h
    · cases i with
      | pageAddr q => exact absurd (.inl ⟨q, rfl⟩) hi
      | sectorAddr m => exact absurd (.inr (.inl ⟨m, rfl⟩)) hi
      | sectorOfPage q => exact absurd (.inr (.inr ⟨q, rfl⟩)) hi
      | encSr1 | encSr2 | encSr3 | encId | encRead | readSr1 | readSr2 | readSr3 | busy | writeEnabled | addrMode4b
      | readId | works | readRaw | readPage => exact Or.resolve_right h id
      | _ => exact h
  · rcases harray hidle with h | ⟨p, f, n, hi, hp, -⟩
    · rw [h]
    · have := hsmall p hi
      omega
  · rcases harray hidle with h | ⟨p, f, n, -, -, hf, h⟩
    · rw [h]
    · rw [hpend] at hf
      rw [h, Device.read_complete_erase_zero hwf hf n hx]

end Sys2Proof.Machine
end

section
/-! PROOFS. Where the bits of a frame stand in the serial stream, and the numbers of the address translator. -/

namespace Sys2Proof

/-! ## The serial stream (20_memory R53, 30_encoding R90) -/

@[simp] theorem byteBits_length (b : Byte) : (byteBits b).length = 8 := rfl

/-- Bit 7 of a byte is shifted first (20_memory R53). -/
theorem byteBits_getD (b : Byte) {j : Nat} (hj : j < 8) : (byteBits b).getD j false = b.getLsbD (7 - j) := by
  simp [byteBits, List.getD_eq_getElem?_getD, hj]

theorem streamBits_cons (b : Byte) (tx : List Byte) : streamBits (b :: tx) = byteBits b ++ streamBits tx :=
  List.flatMap_cons

theorem streamBits_length (tx : List Byte) : (streamBits tx).length = sckCycles tx := by
  induction tx with
  | nil => rfl
  | cons b tx ih =>
    rw [streamBits_cons, List.length_append, ih, byteBits_length]
    simp only [sckCycles, List.length_cons]
    omega

/-- Byte `k` of a frame stands at stream bits 8k to 8k + 7 (30_encoding R90). -/
theorem streamBits_getD {tx : List Byte} {k j : Nat} (hj : j < 8) (hk : k < tx.length) :
    (streamBits tx).getD (8 * k + j) false = (tx.getD k 0).getLsbD (7 - j) := by
  induction tx generalizing k with
  | nil => simp at hk
  | cons b tx ih =>
    rw [streamBits_cons]
    cases k with
    | zero =>
      rw [Nat.mul_zero, Nat.zero_add, List.getD_append _ _ _ _ (by simpa using hj)]
      exact byteBits_getD b hj
    | succ k =>
      rw [List.getD_append_right _ _ _ _ (by rw [byteBits_length]; omega), byteBits_length,
        show 8 * (k + 1) + j - 8 = 8 * k + j by omega]
      exact ih (by simpa using hk)

/-- The most significant byte of an address comes first (20_memory R54). -/
theorem addr4_append_getD (a : BitVec 32) (rest : List Byte) {k : Nat} (hk : k < 4) :
    (addr4 a ++ rest).getD k 0 = a.extractLsb' (8 * (3 - k)) 8 := by
  match k, hk with
  | 0, _ | 1, _ | 2, _ | 3, _ => rfl

/-- A[31] of an addressed frame is stream bit 8, and A[0] is stream bit 39. -/
theorem streamBits_addr (op : Byte) (a : BitVec 32) (rest : List Byte) {j : Nat} (hj : j < 32) :
    (streamBits (op :: (addr4 a ++ rest))).getD (8 + j) false = a.getLsbD (31 - j) := by
  rw [show 8 + j = 8 * (j / 8 + 1) + j % 8 by omega,
    streamBits_getD (by omega) (by simp only [List.length_cons, List.length_append, addr4_length]; omega),
    List.getD_cons_succ, addr4_append_getD a rest (by omega), BitVec.getLsbD_extractLsb',
    show 8 * (3 - j / 8) + (7 - j % 8) = 31 - j by omega]
  simp only [show 7 - j % 8 < 8 by omega, decide_true, Bool.true_and]

/-- Settles O6: a byte stands at the eight stream bits of its index, and address and data are bytes of the frame. -/
theorem addressBitsInTheStream : Obligations.AddressBitsInTheStream := by
  refine ⟨fun tx k j => streamBits_getD, fun tx => ⟨streamBits_length tx, rfl⟩, fun a n d j hj => ⟨?_, ?_, ?_⟩,
    fun a d k j hk hj => ?_⟩
  · simpa [encErase] using streamBits_addr 0x21#8 a [] hj
  · exact streamBits_addr _ a _ hj
  · exact streamBits_addr _ a d hj
  · rw [show 40 + 8 * k + j = 8 * (5 + k) + j by omega, streamBits_getD hj (by rw [encProg_length]; omega),
      show 5 + k = k + 5 by omega]
    rfl

/-! ## The address translator (43_address_translator R170 to R172) -/

namespace Machine

theorem pageAddress_toNat (p : BitVec 24) : (pageAddress p).toNat = p.toNat * 256 := by
  have := p.isLt
  simp only [pageAddress, BitVec.toNat_shiftLeft, BitVec.toNat_setWidth, Nat.shiftLeft_eq]
  omega

theorem sectorAddress_toNat (m : BitVec 20) : (sectorAddress m).toNat = m.toNat * 4096 := by
  have := m.isLt
  simp only [sectorAddress, BitVec.toNat_shiftLeft, BitVec.toNat_setWidth, Nat.shiftLeft_eq]
  omega

theorem pageAddress_eq_ofNat (p : BitVec 24) : pageAddress p = BitVec.ofNat 32 (p.toNat * 256) := by
  rw [← pageAddress_toNat, BitVec.ofNat_toNat, BitVec.setWidth_eq]

/-- The page numbers of sector `m` are those from 16 m to 16 m + 15, and none of them is truncated. -/
theorem toNat_ofNat_page_of_sector (m : BitVec 20) {j : Nat} (hj : j < 16) :
    (BitVec.ofNat 24 (16 * m.toNat + j)).toNat = 16 * m.toNat + j := by
  have := m.isLt
  rw [BitVec.toNat_ofNat, Nat.mod_eq_of_lt (by omega)]

/-- Settles O9: the translator's functions as numbers. -/
theorem sectorOfPageLaws : Obligations.SectorOfPageLaws := by
  refine ⟨fun p => ?_, fun p q hpq => ?_, fun p => ?_, fun m j hj => ?_, fun m => ?_, fun a => ?_⟩
  · rw [sectorNumberFromPage_toNat, Nat.shiftRight_eq_div_pow]
    exact ⟨rfl, rfl⟩
  · rw [sectorNumberFromPage_toNat, sectorNumberFromPage_toNat]
    exact Nat.div_le_div_right hpq
  · rw [sectorAddress_toNat, pageAddress_toNat, sectorNumberFromPage_toNat]
    omega
  · apply BitVec.eq_of_toNat_eq
    rw [sectorNumberFromPage_toNat, toNat_ofNat_page_of_sector m hj]
    omega
  · apply BitVec.eq_of_toNat_eq
    have hpage := toNat_ofNat_page_of_sector m (j := 0) (by decide)
    rw [Nat.add_zero] at hpage
    rw [pageAddress_toNat, sectorAddress_toNat, hpage]
    omega
  · rw [Nat.shiftRight_eq_div_pow, Nat.shiftRight_eq_div_pow]
    exact ⟨rfl, rfl⟩

end Machine

end Sys2Proof
end

section
/-! PROOFS. The nine wire commands on the bus and at the reference device, with no pulse of RST pending: each is one
transaction (`exec_frame_quiet`), answered by the device and acted on by it as the gap before it left it. -/

namespace Sys2Proof.Machine

/-! ## One transaction -/

/-- With no pulse of RST a well-formed wire command is the whole transaction of its frame (30_encoding R90). -/
theorem exec_frame_quiet {i : Instr} {tx : List Byte} (hwf : WellFormed i) (he : encode i = .frame tx) {s : State}
    (hrst : s.rstIn = none) : exec i s = .next (s.xfer tx) := by
  rw [exec_of_frame hwf he, State.transact_quiet hrst]

/-- Settles O11: the fields of a transaction; what the encoder extracts goes by the opcode of the frame. -/
theorem wireCommandIsOneTransaction : Obligations.WireCommandIsOneTransaction := by
  intro i tx s hwire hwf he hrst
  refine ⟨s.xfer tx, s.elapse.answer tx, exec_frame_quiet hwf he hrst, State.answer_length _ _, rfl, ?_,
    ⟨rfl, rfl, rfl, rfl, rfl, rfl, rfl, rfl⟩, ⟨rfl, rfl, rfl⟩, rfl, rfl, rfl, rfl, rfl, rfl⟩
  cases i with
  | encSr1 | encSr2 | encSr3 | encEnter4b | encWren | encId | encRead | encProg | encErase => cases he; rfl
  | _ => cases hwire

/-- The bytes the encoder extracts from an answer of the reference device. -/
theorem State.xfer_result_reference {s : State} (henv : s.env = .reference) (tx : List Byte) :
    (s.xfer tx).result = misoUsed tx (s.elapse.dev.answer (s.draws + 1) tx) := by
  rw [State.xfer_result, State.answer_reference (s := s.elapse) henv, State.elapse_draws]

/-- The record of a transaction with the reference device. -/
theorem State.xfer_trace_reference {s : State} (henv : s.env = .reference) (tx : List Byte) :
    (s.xfer tx).trace = sent tx (s.elapse.dev.answer (s.draws + 1) tx) :: s.trace := by
  rw [State.xfer_trace, State.answer_reference (s := s.elapse) henv, State.elapse_draws]
  rfl

/-- A frame the reference device does not act on leaves it as the gap before the frame left it. -/
theorem State.xfer_dev_of_act_eq {s : State} (henv : s.env = .reference) {tx : List Byte}
    (h : ∀ n, s.elapse.dev.act n tx = s.elapse.dev) : (s.xfer tx).dev = s.elapse.dev := by
  rw [State.xfer_dev_reference henv, h]

/-! ## Status reads, write enable and the address mode (20_memory R62 to R64, R70) -/

/-- SR1 as a status read gets it: SR1_OTHER and BUSY as they stand, and WEL unless a busy device draws it. -/
theorem Device.sr1_eq (d : Device) (drawn : Bool) :
    ∃ w, d.sr1 drawn = sr1Byte d.sr1Other w d.busy ∧ (d.busy = false ∨ d.welBusy = .keep → w = d.wel) := by
  refine ⟨_, rfl, fun h => if_neg ?_⟩
  rcases h with h | h <;> simp [h]

/-- Settles O12: the three registers at the reference device, which does not act on a status read. -/
theorem statusReadsReturnTheRegisters : Obligations.StatusReadsReturnTheRegisters := by
  intro s hrst henv
  refine ⟨?_, ?_, ?_⟩
  · obtain ⟨w, hsr1, hw⟩ := s.elapse.dev.sr1_eq (drawBit (s.draws + 1 + 1))
    refine ⟨s.xfer encSr1, w, exec_frame_quiet rfl rfl hrst,
      State.xfer_dev_of_act_eq henv fun _ => Device.act_encSr1 _ _, ?_, hw⟩
    rw [State.xfer_result_reference henv, misoUsed_encSr1, hsr1]
    rfl
  · exact ⟨s.xfer encSr2, exec_frame_quiet rfl rfl hrst,
      State.xfer_dev_of_act_eq henv fun _ => Device.act_encSr2 _ _, State.xfer_result_reference henv _⟩
  · exact ⟨s.xfer encSr3, exec_frame_quiet rfl rfl hrst,
      State.xfer_dev_of_act_eq henv fun _ => Device.act_encSr3 _ _, State.xfer_result_reference henv _⟩

/-- No gap changes the address mode. -/
theorem State.elapse_dev_ads (s : State) : s.elapse.dev.ads = s.dev.ads := by
  cases henv : s.env with
  | unconstrained => rw [State.elapse_dev_unconstrained henv]
  | reference =>
    rw [State.elapse_dev_reference henv]
    rcases s.dev.elapse_cases s.draws with ⟨-, h⟩ | ⟨-, k, -, h⟩ | ⟨-, -, h⟩ <;> rw [h]
    rfl

/-- No wire command clears ADS (20_memory R64). -/
theorem Device.act_ads {i : Instr} {tx : List Byte} (hwf : WellFormed i) (he : encode i = .frame tx) {d : Device}
    (hads : d.ads = true) (n : Nat) : (d.act n tx).ads = true := by
  rcases Device.act_cases hwf he d n with h | ⟨-, -, h⟩ | ⟨-, -, h⟩ | ⟨a, data, -, -, -, len, h⟩ |
    ⟨a, -, -, -, len, h⟩ <;> rw [h]
  all_goals exact hads

/-- Settles O13: the device acts on the two commands, and neither a gap nor any command clears ADS. -/
theorem writeEnableAndModeCommands : Obligations.WriteEnableAndModeCommands := by
  refine ⟨fun s hrst henv => ⟨⟨_, exec_frame_quiet rfl rfl hrst, ?_⟩, ⟨_, exec_frame_quiet rfl rfl hrst, ?_⟩⟩,
    fun i s t hwire hrst hexec hads => ?_, fun s hrst henv =>
    ⟨_, exec_frame_quiet rfl rfl hrst, State.xfer_dev_unconstrained henv _⟩⟩
  · rw [State.xfer_dev_reference henv, Device.act_encWren]
  · rw [State.xfer_dev_reference henv, Device.act_encEnter4b]
  · obtain ⟨hwf, tx, he, rfl⟩ := exec_wire_quiet hwire hrst hexec
    have hgap : s.elapse.dev.ads = true := s.elapse_dev_ads.trans hads
    rcases s.xfer_dev_cases tx with h | ⟨n, h⟩ <;> rw [h]
    · exact hgap
    · exact Device.act_ads hwf he hgap n

/-! ## Page program and sector erase (20_memory R67, R68, R72 to R74) -/

/-- A busy or write-protected device ignores a program or an erase (20_memory R67, R68). -/
theorem Device.accept_refused {d : Device} (h : ¬ (d.busy = false ∧ d.wel = true)) (n : Nat) (p : Pending) :
    d.accept n p = d :=
  if_neg (by simpa using h)

theorem Device.addrModeOk_eq_false (d : Device) : d.addrModeOk = false ↔ d.ads = false ∧ d.mode3b = .havoc := by
  cases hm : d.mode3b <;> simp [Device.addrModeOk, hm]

theorem pageBase_eq (a : Nat) : pageBase a = a / 256 * 256 := by
  simp only [pageBase, Config.pageSize]
  omega

theorem Device.unaligned_havoc_iff (d : Device) (a : Nat) :
    (decide (a % Config.pageSize ≠ 0) && d.unaligned == .havoc) = true ↔ a % 256 ≠ 0 ∧ d.unaligned = .havoc := by
  rw [Bool.and_eq_true, decide_eq_true_iff, beq_iff_eq]
  rfl

/-- PENDING of a page program, by the rules that give a Havoc (20_memory R72 to R74). -/
theorem Device.programPending_eq (d : Device) (a : BitVec 32) (data : List Byte) :
    d.programPending a data =
      if d.ads = false ∧ d.mode3b = .havoc then .havoc .whole
      else if a.toNat % 256 ≠ 0 ∧ d.unaligned = .havoc then
        (if d.lastAddr.toNat + 1 < a.toNat / 256 * 256 + 512 then .havoc .whole
        else .havoc (.span (a.toNat / 256 * 256) 512))
      else if d.lastAddr.toNat + 1 < a.toNat / 256 * 256 + 256 then .havoc .whole
      else .program a data := by
  simp only [Device.programPending, Device.programSpan, Device.capacity, pageBase_eq, d.unaligned_havoc_iff,
    Bool.not_eq_true', d.addrModeOk_eq_false]
  by_cases hu : a.toNat % 256 ≠ 0 ∧ d.unaligned = .havoc
  · simp only [if_pos hu]
    rfl
  · simp only [if_neg hu]
    rfl

/-- PENDING of a sector erase (20_memory R73, R74). -/
theorem Device.erasePending_eq (d : Device) (a : BitVec 32) :
    d.erasePending a =
      if d.ads = false ∧ d.mode3b = .havoc then .havoc .whole
      else if d.lastAddr.toNat + 1 < a.toNat / 4096 * 4096 + 4096 then .havoc .whole
      else .erase (a.toNat / 4096) := by
  simp only [Device.erasePending, Device.capacity, Bool.not_eq_true', d.addrModeOk_eq_false]
  rfl

/-- Settles O14: the device accepts the command as the gap left it, with PENDING as the rules give it, or ignores it. -/
theorem programAndEraseAcceptance : Obligations.ProgramAndEraseAcceptance := by
  intro s a data hrst henv hlen d cap page sec
  obtain ⟨n, hprog⟩ : ∃ n, (s.xfer (encProg a data)).dev = d.accept n (d.programPending a data) :=
    ⟨_, by rw [State.xfer_dev_reference henv, Device.act_encProg _ _ _ _ hlen]⟩
  obtain ⟨m, herase⟩ : ∃ m, (s.xfer (encErase a)).dev = d.accept m (d.erasePending a) :=
    ⟨_, by rw [State.xfer_dev_reference henv, Device.act_encErase]⟩
  have hwf : WellFormed (.encProg a data) := beq_iff_eq.mpr hlen
  refine ⟨_, _, exec_frame_quiet hwf rfl hrst, exec_frame_quiet rfl rfl hrst, fun h => ?_,
    fun ⟨hb, hw⟩ => ?_⟩
  · rw [hprog, herase, Device.accept_refused h, Device.accept_refused h]
    exact ⟨rfl, rfl⟩
  · rw [hprog, herase, ← Device.programPending_eq, ← Device.erasePending_eq]
    exact ⟨Device.accepted_accept hb hw _ _, Device.accepted_accept hb hw _ _⟩

/-! ## Rejection while busy (20_memory R69) -/

/-- A busy device acts on no command. -/
theorem Device.act_of_busy {i : Instr} {tx : List Byte} (hwf : WellFormed i) (he : encode i = .frame tx) {d : Device}
    (hb : d.busy = true) (n : Nat) : d.act n tx = d := by
  rcases Device.act_cases hwf he d n with h | ⟨-, hidle, -⟩ | ⟨-, hidle, -⟩ | ⟨a, data, -, hidle, -⟩ |
    ⟨a, -, hidle, -⟩
  · exact h
  all_goals simp [hb] at hidle

/-- A busy device defines no MISO byte but those of the status reads. -/
theorem Device.answer_of_busy {i : Instr} {tx : List Byte} (he : encode i = .frame tx)
    (hi : i ∉ [Instr.encSr1, .encSr2, .encSr3]) {d : Device} (hb : d.busy = true) (n : Nat) :
    d.answer n tx = (List.range tx.length).map fun k => Config.draw (n + k) := by
  refine List.map_congr_left fun k _ => ?_
  cases i with
  | encSr1 | encSr2 | encSr3 => simp at hi
  | encEnter4b | encWren | encId | encRead | encProg | encErase => cases he; simp [Device.misoByte, hb]
  | _ => cases he

/-- Settles O15: the device is busy after the gap, so it neither answers the command nor acts on it. -/
theorem commandsAreRejectedWhileBusy : Obligations.CommandsAreRejectedWhileBusy := by
  intro i tx s _ hwf he hi hrst henv hb
  refine ⟨s.xfer tx, s.draws + 1, exec_frame_quiet hwf he hrst,
    State.xfer_dev_of_act_eq henv fun _ => Device.act_of_busy hwf he hb _, ?_⟩
  rw [State.xfer_trace_reference henv, Device.answer_of_busy he hi hb]

/-! ## Identity and memory reads (20_memory R55, R56, R65, R66, R73 to R75) -/

theorem Device.answer_encId_id {d : Device} (hb : d.busy = false) (n : Nat) : (d.answer n encId).getD 4 0 = d.id := by
  rw [d.answer_getD n _ _ (by decide)]
  simp [Device.misoByte, hb]

/-- The opcode and the don't-care bytes of an identity read are answered with draws. -/
theorem Device.answer_encId_head (d : Device) (n : Nat) {k : Nat} (hk : k < 4) :
    (d.answer n encId).getD k 0 = Config.draw (n + k) := by
  rw [d.answer_getD n _ _ (by rw [encId_length]; omega)]
  simp [Device.misoByte, show k ≠ 4 by omega]

/-- Where a read of an idle device reaches the array it gets the byte there. -/
theorem Device.answer_encRead_array {d : Device} (hb : d.busy = false) (hu : d.Usable) (n : Nat) (a : BitVec 32)
    {len k : Nat} (hk : k < len) (hcap : a.toNat + k < d.lastAddr.toNat + 1) :
    (d.answer n (encRead a len)).getD (5 + k) 0 = d.array.read (a.toNat + k) := by
  rw [d.answer_encRead_data n a len k hb hk, if_pos (d.addrModeOk_iff.mpr hu)]
  exact if_pos hcap

/-- Where it does not, in 3-byte mode under HAVOC or at or beyond the capacity, it gets a draw. -/
theorem Device.answer_encRead_draw {d : Device} (hb : d.busy = false) (n : Nat) (a : BitVec 32) {len k : Nat}
    (hk : k < len) (h : ¬ d.Usable ∨ d.lastAddr.toNat + 1 ≤ a.toNat + k) :
    (d.answer n (encRead a len)).getD (5 + k) 0 = Config.draw (n + (5 + k)) := by
  rw [d.answer_encRead_data n a len k hb hk]
  split
  · next hok => exact if_neg (Nat.not_lt.mpr (h.resolve_left (not_not_intro (d.addrModeOk_iff.mp hok))))
  · rfl

/-- Settles O16: the answer of an idle device byte by byte. -/
theorem identityAndMemoryReads : Obligations.IdentityAndMemoryReads := by
  intro s a n hrst henv hb
  have hgap : s.elapse.dev = s.dev := State.elapse_dev_idle hb
  constructor
  · refine ⟨s.xfer encId, s.dev.answer (s.draws + 1) encId, s.draws + 1, exec_frame_quiet rfl rfl hrst, ?_,
      Device.answer_length _ _ _, ?_, ?_, Device.answer_encId_id hb _, fun k => Device.answer_encId_head _ _⟩
    · rw [State.xfer_dev_of_act_eq henv fun _ => Device.act_encId _ _, hgap]
    · rw [State.xfer_trace_reference henv, hgap]
      rfl
    · rw [State.xfer_result_reference henv, hgap, misoUsed_encId _ _ hb]
  · refine ⟨s.xfer (encRead a n.toNat), s.dev.answer (s.draws + 1) (encRead a n.toNat), s.draws + 1,
      exec_frame_quiet rfl rfl hrst, ?_, by simp, ?_, ?_, fun k => Device.answer_encRead_head _ _ _ _ _,
      fun k hk => ⟨fun hu => Device.answer_encRead_array hb hu _ _ hk, Device.answer_encRead_draw hb _ _ hk⟩⟩
    · rw [State.xfer_dev_of_act_eq henv fun _ => Device.act_encRead _ _ _ _, hgap]
    · rw [State.xfer_trace_reference henv, hgap]
    · rw [State.xfer_result_reference henv, hgap]
      rfl

end Sys2Proof.Machine
end

section
/-! PROOFS. The host operations at the reference device, with no pulse of RST pending: the status operations read it as
the gap before them leaves it, and on an idle device every check reads the device as it stands. -/

namespace Sys2Proof.Machine

/-! ## Status operations (41_status_decoder R140 to R145) -/

/-- An operation of one status read answers `f` of the byte it reads, and leaves the device as the gap left it. -/
theorem serve_srQuery_answered {s : State} (hrst : s.rstIn = none) {frame : List Byte}
    (hf : frame = encSr1 ∨ frame = encSr2 ∨ frame = encSr3) (f : Byte → BitVec 32) :
    ∃ t, serve (srQuery frame fun b => .respond true .none (f b)) s = .next t ∧ t.dev = s.elapse.dev ∧
      Answered s t [sent frame (s.elapse.answer frame)] true .none (f ((s.elapse.answer frame).getD 1 0)) := by
  have hused : ∀ rx, misoUsed frame rx = [rx.getD 1 0] := by rcases hf with rfl | rfl | rfl <;> exact fun _ => rfl
  have hafter : (s.start.after frame).rstIn = none := by simp [hrst]
  refine ⟨_, serve_eq _ _, ?_, ?_⟩ <;> rw [srQuery_run_quiet (s := s.start) hrst frame hused, Prog.run_respond]
  · rw [State.respond_dev hafter, State.after_status_dev _ hf, State.start_elapse_dev]
  · exact ((Via.start s).after frame).respond hafter _ _ _

/-- The byte a status operation reads from the reference device is the register. -/
theorem serve_srQuery_reference {s : State} (hrst : s.rstIn = none) {frame : List Byte}
    (hf : frame = encSr1 ∨ frame = encSr2 ∨ frame = encSr3) (f : Byte → BitVec 32) {b : Byte}
    (hb : (s.elapse.answer frame).getD 1 0 = b) :
    ∃ t, serve (srQuery frame fun b => .respond true .none (f b)) s = .next t ∧ t.resp = respWord true .none (f b) := by
  obtain ⟨t, hserve, -, ht⟩ := serve_srQuery_answered hrst hf f
  exact ⟨t, hserve, hb ▸ ht.resp⟩

theorem answer_sr2_reference {s : State} (h : s.env = .reference) : (s.answer encSr2).getD 1 0 = s.dev.sr2 := by
  rw [State.answer_reference h, Device.answer_getD _ _ _ _ (by decide)]
  rfl

/-- Settles O20: each status operation reads its register once; BUSY and ADS are bits of it, and so is the WEL read. -/
theorem statusOperationsOnTheDevice : Obligations.StatusOperationsOnTheDevice := by
  intro s hrst henv
  obtain ⟨w, hw, hwel⟩ := s.elapse.dev.sr1_eq (drawBit (s.draws + 2))
  have hsr1 : (s.elapse.answer encSr1).getD 1 0 = sr1Byte s.elapse.dev.sr1Other w s.elapse.dev.busy :=
    (State.readsSr1_reference henv).trans hw
  have hsr2 : (s.elapse.answer encSr2).getD 1 0 = s.elapse.dev.sr2 := answer_sr2_reference (s := s.elapse) henv
  have hsr3 : (s.elapse.answer encSr3).getD 1 0 = s.elapse.dev.sr3 := State.readsSr3_reference henv
  refine ⟨?_, fun hkeep => ?_, ?_, ?_, ?_, ?_⟩
  · obtain ⟨t, ht, hresp⟩ := serve_srQuery_reference hrst (.inl rfl) (fun b => boolVal (busyBit b)) hsr1
    exact ⟨t, ht, by rw [hresp, busyBit_sr1Byte]; rfl⟩
  · obtain ⟨t, ht, hresp⟩ := serve_srQuery_reference hrst (.inl rfl) (fun b => boolVal (welBit b)) hsr1
    exact ⟨t, ht, by rw [hresp, welBit_sr1Byte, hwel hkeep]; rfl⟩
  · obtain ⟨t, ht, hresp⟩ := serve_srQuery_reference hrst (.inr (.inr rfl)) (fun b => boolVal (adsBit b)) hsr3
    exact ⟨t, ht, by rw [hresp, adsBit_sr3]; rfl⟩
  · obtain ⟨t, ht, hresp⟩ := serve_srQuery_reference hrst (.inl rfl) byteVal hsr1
    exact ⟨t, w, ht, hresp, hwel⟩
  · exact serve_srQuery_reference hrst (.inr (.inl rfl)) byteVal hsr2
  · exact serve_srQuery_reference hrst (.inr (.inr rfl)) byteVal hsr3

/-! ## The polling loop (30_encoding R107, 70 R238) -/

/-- A BUSY request at the host port of an IDLE block is answered by the next step with BUSY as the gap leaves it, and
the block is ready for the next one. -/
theorem step_busy_request {s : State} {rest : List HostEvent} (hidle : s.seqState = .idle) (hrst : s.rstIn = none)
    (hheld : s.rstHeld = 0) (henv : s.env = .reference) (hhost : s.host = .request 0x0000000000000003#64 none :: rest) :
    ∃ t, step s = .next t ∧ t.seqState = .idle ∧ t.rstIn = none ∧ t.rstHeld = 0 ∧ t.env = .reference ∧
      t.host = rest ∧ t.dev = s.elapse.dev ∧ t.respValid = true ∧
      t.resp = respWord true .none (boolVal s.elapse.dev.busy) := by
  obtain ⟨r, hr, hdev, ht⟩ := serve_srQuery_answered
    (s := { s with host := rest, seqState := .run, req := 0x0000000000000003#64, answers := [], respValid := false })
    hrst (.inl rfl) (fun b => boolVal (busyBit b))
  have hstep := (stepRunsTheDecodedInstruction.1 s _ none rest .busy hidle hheld hrst hhost rfl).1 rfl
  refine ⟨r, hstep.trans hr, ht.idle, ht.block.rstIn.trans hrst, ht.block.rstHeld.trans hheld,
    ht.block.env.trans henv, ht.block.host, hdev, ht.respValid, ht.resp.trans ?_⟩
  exact congrArg (fun b => respWord true .none (boolVal b)) (State.busyBit_readsSr1 (s := s) henv)

@[simp] theorem Device.complete_busy (d : Device) (n : Nat) : (d.complete n).busy = false := rfl

/-- Settles O43, by induction on the gaps left: each request but the last takes one, and the last finds none left and
completes the busy period. -/
theorem pollingEndsTheBusyPeriod : Obligations.PollingEndsTheBusyPeriod := by
  intro s hidle hrst hheld henv hb hhost
  generalize hleft : s.dev.busyLeft = left at hhost ⊢
  induction left generalizing s with
  | zero =>
    obtain ⟨t, hstep, -, -, -, -, -, hdev, hvalid, hresp⟩ := step_busy_request hidle hrst hheld henv hhost
    rw [State.elapse_dev_reference henv, Device.elapse_done _ _ hb hleft] at hdev hresp
    exact ⟨t, run_succ 0 hstep, by rw [hdev, Device.complete_busy], hvalid, by rw [hresp, Device.complete_busy]; rfl⟩
  | succ k ih =>
    obtain ⟨t, hstep, hidle', hrst', hheld', henv', hhost', hdev, -⟩ := step_busy_request hidle hrst hheld henv hhost
    rw [State.elapse_dev_busy henv hb hleft] at hdev
    obtain ⟨u, hu, hend⟩ := ih t hidle' hrst' hheld' henv' (by rw [hdev]; exact hb) (by rw [hdev]) hhost'
    exact ⟨u, (run_succ (k + 1) hstep).trans hu, hend⟩

/-! ## Sequences on an idle device (42_command_issuer R150 to R156) -/

/-- An idle device acts on a frame as it stands: no gap has done anything to it. -/
theorem State.after_dev_idle {s : State} (henv : s.env = .reference) (hb : s.dev.busy = false) (tx : List Byte) :
    (s.after tx).dev = s.dev.act (s.draws + 1 + tx.length) tx := by
  rw [State.after_dev, State.xfer_dev_reference henv, State.elapse_dev_idle hb]

/-- The busy check leaves an idle device alone. -/
theorem State.after_check_dev_idle {s : State} (hb : s.dev.busy = false) : (s.after encSr1).dev = s.dev := by
  rw [State.after_status_dev _ (.inl rfl), State.elapse_dev_idle hb]

/-- The busy check passes on an idle device. -/
theorem State.busyBit_readsSr1_idle {s : State} (henv : s.env = .reference) (hb : s.dev.busy = false) :
    ¬ busyBit s.readsSr1 = true := by
  rw [State.busyBit_readsSr1 henv, State.elapse_dev_idle hb, hb]
  exact Bool.false_ne_true

/-- A command sent after the busy check finds an idle device as it stands. -/
theorem State.after_command_dev_idle {s : State} (henv : s.env = .reference) (hb : s.dev.busy = false)
    (command : List Byte) :
    ((s.after encSr1).after command).dev = s.dev.act ((s.after encSr1).draws + 1 + command.length) command := by
  have hdev : (s.after encSr1).dev = s.dev := State.after_check_dev_idle hb
  rw [State.after_dev_idle (by simpa using henv) (by rw [hdev, hb]), hdev]

/-- The gap after the busy check does nothing to an idle device. -/
theorem State.elapse_dev_after_check_idle {s : State} (henv : s.env = .reference) (hb : s.dev.busy = false) :
    (s.after encSr1).elapse.dev = s.dev := by
  rw [State.elapse_dev_after_check (State.busyBit_readsSr1_idle henv hb), State.elapse_dev_idle hb]

/-- The gap after a command that starts no busy period leaves what the command has made of the idle device. -/
theorem State.elapse_dev_after_command_idle {s : State} (henv : s.env = .reference) (hb : s.dev.busy = false)
    {command : List Byte} {e : Device} (hact : ∀ n, s.dev.act n command = e) (he : e.busy = false) :
    ((s.after encSr1).after command).elapse.dev = e := by
  have hdev : ((s.after encSr1).after command).dev = e := (State.after_command_dev_idle henv hb command).trans (hact _)
  rw [State.elapse_dev_idle (hdev ▸ he), hdev]

theorem enter4bSeq_run_idle {s : State} (hrst : s.rstIn = none) (henv : s.env = .reference)
    (hb : s.dev.busy = false) (k : Bool → Cause → Prog) :
    ∃ u, (enter4bSeq k).run s = (k true .none).run u ∧ u.rstIn = none ∧ u.dev = { s.dev with ads := true } := by
  have hcmd : ((s.after encSr1).after encEnter4b).elapse.dev = { s.dev with ads := true } :=
    State.elapse_dev_after_command_idle henv hb (fun n => by rw [Device.act_encEnter4b, if_neg (by simp [hb])]) hb
  refine ⟨((s.after encSr1).after encEnter4b).after encSr3, ?_, by simp [hrst],
    (State.after_status_dev _ (.inr (.inr rfl))).trans hcmd⟩
  rw [enter4bSeq_run_quiet hrst, if_neg (State.busyBit_readsSr1_idle henv hb), if_pos]
  rw [State.adsBit_readsSr3 (by simpa using henv), hcmd]

theorem enableWriteSeq_run_idle {s : State} (hrst : s.rstIn = none) (henv : s.env = .reference)
    (hb : s.dev.busy = false) (k : Bool → Cause → Prog) :
    ∃ u, (enableWriteSeq k).run s = (k true .none).run u ∧ u.rstIn = none ∧ u.dev = { s.dev with wel := true } := by
  have hcmd : ((s.after encSr1).after encWren).elapse.dev = { s.dev with wel := true } :=
    State.elapse_dev_after_command_idle henv hb (fun n => by rw [Device.act_encWren, if_neg (by simp [hb])]) hb
  refine ⟨((s.after encSr1).after encWren).after encSr1, ?_, by simp [hrst],
    (State.after_status_dev _ (.inl rfl)).trans hcmd⟩
  rw [enableWriteSeq_run_quiet hrst, if_neg (State.busyBit_readsSr1_idle henv hb), if_pos]
  rw [State.welBit_readsSr1 (by simpa using henv) (by rw [hcmd]; exact hb), hcmd]

theorem readIdSeq_run_idle {s : State} (hrst : s.rstIn = none) (henv : s.env = .reference)
    (hb : s.dev.busy = false) (k : Bool → Cause → Byte → Prog) :
    ∃ u, (readIdSeq k).run s = (k true .none s.dev.id).run u ∧ u.rstIn = none ∧ u.dev = s.dev := by
  refine ⟨(s.after encSr1).after encId, ?_, by simp [hrst], State.after_command_dev_idle henv hb _⟩
  have hgap : (s.after encSr1).elapse.dev = s.dev := State.elapse_dev_after_check_idle henv hb
  rw [readIdSeq_run_quiet hrst, if_neg (State.busyBit_readsSr1_idle henv hb),
    State.answer_reference (by simpa using henv), hgap, Device.answer_encId_id hb]

/-- A read sequence emits the answer of the idle device to its read frame without the first five bytes. -/
theorem readRawSeq_run_idle {s : State} (hrst : s.rstIn = none) (henv : s.env = .reference)
    (hb : s.dev.busy = false) (a : BitVec 32) (n : Nat) (k : Bool → Cause → Prog) :
    ∃ u m, (readRawSeq a n k).run s = (k true .none).run u ∧ u.rstIn = none ∧ u.dev = s.dev ∧
      u.rdata = s.rdata ++ (s.dev.answer m (encRead a n)).drop 5 := by
  refine ⟨((s.after encSr1).after (encRead a n)).emit
    ((s.dev.answer ((s.after encSr1).draws + 1) (encRead a n)).drop 5), (s.after encSr1).draws + 1, ?_,
    by simp [hrst], State.after_command_dev_idle henv hb _, by simp⟩
  have hgap : (s.after encSr1).elapse.dev = s.dev := State.elapse_dev_after_check_idle henv hb
  rw [readRawSeq_run_quiet hrst, if_neg (State.busyBit_readsSr1_idle henv hb),
    State.answer_reference (by simpa using henv), hgap, State.elapse_draws]

/-- A program or erase sequence on an idle, write-enabled device ends where the device has acted on the command. -/
theorem guardedSeq_run_idle {s : State} (hrst : s.rstIn = none) (henv : s.env = .reference)
    (hb : s.dev.busy = false) (hw : s.dev.wel = true) (command : List Byte) (k : Bool → Cause → Prog) :
    ∃ u n, (guardedSeq command k).run s = (k true .none).run u ∧ u.rstIn = none ∧ u.dev = s.dev.act n command := by
  have hgap : s.elapse.dev = s.dev := State.elapse_dev_idle hb
  obtain ⟨n, hdev⟩ := State.after_checks_dev henv (by rw [hgap, hb]) command
  exact ⟨_, n, guardedSeq_run_ready hrst henv (by rw [hgap, hb]) (by rw [hgap, hw]) command k, by simp [hrst],
    by rw [hdev, hgap]⟩

/-! ## Their answers -/

/-- Serving a sequence whose run comes to that of another from a later state. -/
theorem serve_of_run {p q : Prog} {s u : State} (h : p.run s.start = q.run u) : serve p s = .next (q.run u) := by
  rw [serve_eq, h]

/-- What `respond(1, NONE, 0)` leaves. -/
theorem respondPlain_ok {u : State} (hu : u.rstIn = none) :
    ((respondPlain true .none).run u).resp = 0x0000000000000001#64 ∧
    ((respondPlain true .none).run u).respValid = true ∧ ((respondPlain true .none).run u).dev = u.dev ∧
    ((respondPlain true .none).run u).rdata = u.rdata := by
  rw [respondPlain, Prog.run_respond, State.respond_quiet hu]
  exact ⟨rfl, rfl, rfl, rfl⟩

/-- Settles O22: the command sets its bit on the idle device, and the re-read finds it set. -/
theorem modeSettingOnAnIdleDevice : Obligations.ModeSettingOnAnIdleDevice := by
  intro s hrst henv hb
  constructor
  · intro i hi
    obtain ⟨u, hrun, hu, hdev⟩ := enter4bSeq_run_idle (s := s.start) hrst henv hb respondPlain
    obtain ⟨hresp, hvalid, hd, -⟩ := respondPlain_ok hu
    have hexec : exec i s = .next ((enter4bSeq respondPlain).run s.start) := by
      rcases List.mem_pair.mp hi with rfl | rfl <;> rfl
    exact ⟨_, hexec.trans (congrArg _ hrun), hresp, hvalid, hd.trans hdev⟩
  · obtain ⟨u, hrun, hu, hdev⟩ := enableWriteSeq_run_idle (s := s.start) hrst henv hb respondPlain
    obtain ⟨hresp, hvalid, hd, -⟩ := respondPlain_ok hu
    exact ⟨_, serve_of_run hrun, hresp, hvalid, hd.trans hdev⟩

/-- The comparison of WORKS (45_lifecycle R196, R197). -/
theorem boolVal_eq_expectedId (b : Byte) : boolVal (b == Config.expectedId) = if b = 0x18#8 then 1 else 0 := by
  split
  · next h => subst h; rfl
  · next h =>
    have hne : (b == Config.expectedId) = false := beq_eq_false_iff_ne.mpr h
    rw [hne]
    rfl

/-- Settles O24: the identity read of the idle device gets DEV_ID, which READ_ID answers and WORKS compares. -/
theorem identityOnAnIdleDevice : Obligations.IdentityOnAnIdleDevice := by
  intro s hrst henv hb
  constructor
  · obtain ⟨u, hrun, hu, hdev⟩ := readIdSeq_run_idle (s := s.start) hrst henv hb
      fun ok c id => .respond ok c (byteVal id)
    exact ⟨_, serve_of_run hrun, State.respond_resp hu _ _ _, (State.respond_dev hu _ _ _).trans hdev⟩
  · obtain ⟨u, hrun, hu, hdev⟩ := readIdSeq_run_idle (s := s.start) hrst henv hb
      fun ok _ id => .respond true .none (boolVal (ok && id == Config.expectedId))
    refine ⟨_, serve_of_run hrun, (State.respond_resp hu _ _ _).trans (congrArg _ ?_),
      (State.respond_dev hu _ _ _).trans hdev⟩
    rw [Bool.true_and, boolVal_eq_expectedId, State.start_dev]

/-- A read operation on an idle device succeeds and delivers what the device answers from the address on. -/
theorem readRaw_delivers {s : State} (hrst : s.rstIn = none) (henv : s.env = .reference) (hb : s.dev.busy = false)
    (a : BitVec 32) (n : Nat) :
    ∃ t bytes m, serve (readRawSeq a n respondPlain) s = .next t ∧ t.resp = 0x0000000000000001#64 ∧
      t.respValid = true ∧ t.dev = s.dev ∧ t.rdata = s.rdata ++ bytes ∧ bytes.length = n ∧
      ∀ k, k < n →
        (s.dev.Usable → a.toNat + k < s.dev.lastAddr.toNat + 1 → bytes.getD k 0 = s.dev.array.read (a.toNat + k)) ∧
        (¬ s.dev.Usable ∨ s.dev.lastAddr.toNat + 1 ≤ a.toNat + k → bytes.getD k 0 = Config.draw (m + k)) := by
  obtain ⟨u, m, hrun, hu, hdev, hdata⟩ := readRawSeq_run_idle (s := s.start) hrst henv hb a n respondPlain
  obtain ⟨hresp, hvalid, hd, hr⟩ := respondPlain_ok hu
  have hbyte (k : Nat) : ((s.dev.answer m (encRead a n)).drop 5).getD k 0 =
      (s.dev.answer m (encRead a n)).getD (5 + k) 0 := by
    simp [List.getD_eq_getElem?_getD, List.getElem?_drop]
  refine ⟨_, (s.dev.answer m (encRead a n)).drop 5, m + 5, serve_of_run hrun, hresp, hvalid, hd.trans hdev,
    hr.trans hdata, by simp, fun k hk => ⟨fun hu hcap => ?_, fun h => ?_⟩⟩
  · rw [hbyte, Device.answer_encRead_array hb hu _ _ hk hcap]
  · rw [hbyte, Device.answer_encRead_draw hb _ _ hk h, Nat.add_assoc]

/-- Settles O26: READ_RAW and READ_PAGE are the read sequence at their address. -/
theorem readsDeliverTheArray : Obligations.ReadsDeliverTheArray := by
  intro a n p q hq s hrst henv hb
  rcases List.mem_pair.mp hq with rfl | rfl
  · exact readRaw_delivers hrst henv hb a n.toNat
  · have h := readRaw_delivers hrst henv hb (pageAddress p) Config.pageSize
    rwa [pageAddress_toNat] at h

/-- PENDING is the program itself for an aligned page below the capacity (20_memory R67, R71). -/
theorem Device.programPending_aligned {d : Device} (hu : d.Usable) {a : BitVec 32} (ha : a.toNat % 256 = 0)
    (hcap : a.toNat + 256 ≤ d.lastAddr.toNat + 1) (data : List Byte) : d.programPending a data = .program a data := by
  rw [Device.programPending_eq, if_neg, if_neg (by simp [ha]), if_neg (by omega)]
  rw [← Device.addrModeOk_eq_false, d.addrModeOk_iff.mpr hu]
  simp

/-- PENDING is the erase of the sector that holds the address, when that is below the capacity (20_memory R68). -/
theorem Device.erasePending_fits {d : Device} (hu : d.Usable) {a : BitVec 32}
    (hcap : a.toNat / 4096 * 4096 + 4096 ≤ d.lastAddr.toNat + 1) : d.erasePending a = .erase (a.toNat / 4096) := by
  rw [Device.erasePending_eq, if_neg, if_neg (by omega)]
  rw [← Device.addrModeOk_eq_false, d.addrModeOk_iff.mpr hu]
  simp

/-- A program or an erase on an idle, write-enabled device succeeds, and the device has accepted the command. -/
theorem guardedSeq_starts {s : State} (hrst : s.rstIn = none) (henv : s.env = .reference) (hb : s.dev.busy = false)
    (hw : s.dev.wel = true) {command : List Byte} {q : Pending} (hact : ∀ n, s.dev.act n command = s.dev.accept n q) :
    ∃ t, serve (guardedSeq command respondPlain) s = .next t ∧ t.resp = 0x0000000000000001#64 ∧ t.respValid = true ∧
      s.dev.Accepted t.dev q := by
  obtain ⟨u, n, hrun, hu, hdev⟩ := guardedSeq_run_idle (s := s.start) hrst henv hb hw command respondPlain
  obtain ⟨hresp, hvalid, hd, -⟩ := respondPlain_ok hu
  refine ⟨_, serve_of_run hrun, hresp, hvalid, ?_⟩
  rw [hd, hdev, State.start_dev, hact]
  exact Device.accepted_accept hb hw n q

/-- The page program of a whole page that is below the capacity starts. -/
theorem programPage_starts {s : State} (hrst : s.rstIn = none) (henv : s.env = .reference) (hb : s.dev.busy = false)
    (hw : s.dev.wel = true) (hu : s.dev.Usable) {a : BitVec 32} (ha : a.toNat % 256 = 0)
    (hcap : a.toNat + 256 ≤ s.dev.lastAddr.toNat + 1) :
    ∃ t, exec (.programPage a) s = .next t ∧ t.resp = 0x0000000000000001#64 ∧ t.respValid = true ∧
      s.dev.Accepted t.dev (.program a s.wdata.toList) := by
  refine guardedSeq_starts hrst henv hb hw fun n => ?_
  rw [Device.act_encProg _ _ _ _ (by simp), Device.programPending_aligned hu ha hcap]

/-- The erase of a sector that is below the capacity starts. -/
theorem eraseSector_starts {s : State} (hrst : s.rstIn = none) (henv : s.env = .reference) (hb : s.dev.busy = false)
    (hw : s.dev.wel = true) (hu : s.dev.Usable) {a : BitVec 32}
    (hcap : a.toNat / 4096 * 4096 + 4096 ≤ s.dev.lastAddr.toNat + 1) :
    ∃ t, exec (.eraseSector a) s = .next t ∧ t.resp = 0x0000000000000001#64 ∧ t.respValid = true ∧
      s.dev.Accepted t.dev (.erase (a.toNat / 4096)) := by
  refine guardedSeq_starts hrst henv hb hw fun n => ?_
  rw [Device.act_encErase, Device.erasePending_fits hu hcap]

/-- Settles O28: WRITE_PAGE and SECTOR_ERASE are the program and the erase at their translated address. -/
theorem programsAndErasesStartOnTheDevice : Obligations.ProgramsAndErasesStartOnTheDevice := by
  intro a p m s hrst henv hb hw hu
  refine ⟨programPage_starts hrst henv hb hw hu, fun hcap => ?_, eraseSector_starts hrst henv hb hw hu, fun hcap => ?_⟩
  · have ha := pageAddress_toNat p
    rw [← pageAddress_eq_ofNat]
    exact programPage_starts hrst henv hb hw hu (by omega) (by omega)
  · have ha : (sectorAddress m).toNat / 4096 = m.toNat := by rw [sectorAddress_toNat]; omega
    rw [← ha] at hcap ⊢
    exact eraseSector_starts hrst henv hb hw hu hcap

end Sys2Proof.Machine
end

section
/-! PROOFS. What time does to the device: the gap of a step in which the host does nothing, the completion step and what
it makes of the array, and the round trip of a page through WRITE_PAGE, completion and READ_PAGE. -/

namespace Sys2Proof.Machine

/-! ## A step in which the host does nothing -/

/-- With no move of the host and no pulse of RST a step in IDLE is one gap (20_memory R70). -/
theorem step_waits {s : State} (hidle : s.seqState = .idle) (hhost : s.host = []) (hrst : s.rstIn = none)
    (hheld : s.rstHeld = 0) : step s = .next s.elapse := by
  rw [step_idle hidle hheld hrst]
  simp [idleStep, hhost]

/-- The gap that finds no time left is the completion step. -/
theorem State.elapse_dev_done {s : State} (henv : s.env = .reference) (hb : s.dev.busy = true)
    (hl : s.dev.busyLeft = 0) : s.elapse.dev = s.dev.complete s.draws := by
  rw [State.elapse_dev_reference henv, Device.elapse_done _ _ hb hl]

/-! ## The array after the completion step (20_memory R57 to R59, R70 to R72) -/

theorem Device.complete_array_erase {d : Device} {sec : Nat} (hp : d.pending = .erase sec) (n : Nat) :
    (d.complete n).array = d.array.eraseSector d.capacity sec := by
  simp only [Device.complete, Device.applyPending, hp]

theorem Device.complete_array_program {d : Device} {a : BitVec 32} {data : List Byte} (hp : d.pending = .program a data)
    (n : Nat) : (d.complete n).array = d.array.programPage d.programModel n a.toNat data := by
  simp only [Device.complete, Device.applyPending, hp]

/-- A completion with PENDING None clears BUSY and WEL and nothing else (20_memory R79). -/
theorem Device.complete_of_none {d : Device} (hp : d.pending = .none) (n : Nat) :
    d.complete n = { d with busy := false, wel := false } := by
  simp only [Device.complete, Device.applyPending, hp]

theorem Device.complete_of_havoc {d : Device} {r : Region} (hp : d.pending = .havoc r) (n : Nat) :
    d.complete n =
      { d with array := d.array.havoc d.capacity n r, busy := false, wel := false, pending := .none } := by
  simp only [Device.complete, Device.applyPending, hp]

/-- Settles O39: the erase that the gap completes. -/
theorem completedEraseSetsTheSector : Obligations.CompletedEraseSetsTheSector := by
  intro s sec hidle hhost hrst hheld henv hwf hb hl hp
  have hdev := State.elapse_dev_done henv hb hl
  refine ⟨s.elapse, step_waits hidle hhost hrst hheld, ?_⟩
  rw [hdev]
  refine ⟨rfl, rfl, rfl, rfl, fun x => ?_⟩
  rw [Device.complete_array_erase hp, Flash.read_eraseSector hwf]
  rfl

/-- On an erased cell either program model leaves the new byte (20_memory R57). -/
theorem programmedByte_erased (model : ProgramModel) (new drawn : Byte) :
    programmedByte model 0xFF#8 new drawn = new := by
  cases model with
  | and => exact BitVec.allOnes_and
  | havoc => rfl

/-- The target of byte `k`, written with quotient and remainder (20_memory R72). -/
theorem programTarget_eq (a k : Nat) : programTarget a k = a / 256 * 256 + (a % 256 + k) % 256 := by
  rw [programTarget, pageBase_eq]
  rfl

/-- Settles O40: the program that the gap completes writes each byte at its own target in the page. -/
theorem completedProgramWritesThePage : Obligations.CompletedProgramWritesThePage := by
  intro s a data hidle hhost hrst hheld henv hwf hb hl hp
  have hdev := State.elapse_dev_done henv hb hl
  refine ⟨s.elapse, step_waits hidle hhost hrst hheld, ?_⟩
  rw [hdev, Device.complete_array_program hp]
  refine ⟨rfl, rfl, rfl, fun x hx => ?_, fun k hk => ?_⟩
  · exact Flash.read_programPage_other hwf _ _ _ _ _ (by rw [pageBase_eq]; exact hx)
  · rw [← programTarget_eq]
    dsimp only
    rw [Flash.read_programPage_at hwf _ _ _ _ _ hk]
    refine ⟨fun ha => programTarget_aligned ha hk, fun hm => ?_, fun herased => ?_⟩
    · rw [hm]
      rfl
    · rw [herased, programmedByte_erased]

/-- Settles O41: the three things a gap can do, and the completion of each PENDING that is no program and no erase. -/
theorem waitingAndHavocKeepTheRest : Obligations.WaitingAndHavocKeepTheRest := by
  intro s hidle hhost hrst hheld henv
  have hstep := step_waits hidle hhost hrst hheld
  refine ⟨fun hb => ⟨_, hstep, State.elapse_dev_idle hb⟩,
    fun k hb hk => ⟨_, hstep, State.elapse_dev_busy henv hb hk⟩, fun hb hl hp => ⟨_, hstep, ?_⟩,
    fun r hb hl hp => ⟨_, s.dev.array.havoc s.dev.capacity s.draws r, s.draws, hstep, ?_, ?_, ?_⟩⟩
  · rw [State.elapse_dev_done henv hb hl, Device.complete_of_none hp]
  · rw [State.elapse_dev_done henv hb hl, Device.complete_of_havoc hp]
  · rintro rfl x -
    exact Flash.read_havoc_whole _ _ _ _
  · rintro lo len rfl hwf x
    exact Flash.read_havoc_span hwf _ _ _ _ _

/-! ## The round trip of a page (70 R234) -/

/-- After a program of an erased page every byte of the page is the one programmed there. -/
theorem Device.complete_read_programmed {d : Device} (hwf : d.array.wf = true) {a : BitVec 32} {data : List Byte}
    (hp : d.pending = .program a data) (ha : a.toNat % 256 = 0) {k : Nat} (hk : k < 256)
    (herased : d.array.read (a.toNat + k) = 0xFF#8) (n : Nat) :
    (d.complete n).array.read (a.toNat + k) = data.getD k 0 := by
  have hread := Flash.read_programPage_at hwf d.programModel n a.toNat data k hk
  rwa [programTarget_aligned ha hk, herased, programmedByte_erased, ← Device.complete_array_program hp] at hread

/-- Settles O42: WRITE_PAGE leaves the program of WDATA pending, its completion programs the erased page, and READ_PAGE
finds the device idle and reads the page. -/
theorem writtenPageReadsBack : Obligations.WrittenPageReadsBack := by
  intro p s n hrst henv hb hw hu hwf hcap herased
  have ha : (pageAddress p).toNat = p.toNat * 256 := pageAddress_toNat p
  obtain ⟨t, hwrite, -, -, len, hdev⟩ :=
    (programsAndErasesStartOnTheDevice 0 p 0 s hrst henv hb hw hu).2.1 hcap
  rw [← pageAddress_eq_ofNat] at hdev
  obtain ⟨hblock, -, hrdata, -⟩ := instructionsKeepTheBlock _ s t hrst hwrite
  obtain ⟨u, bytes, m, hread, hresp, -, -, hdata, hlen, hbytes⟩ :=
    readRaw_delivers (s := { t with dev := t.dev.complete n }) (hblock.rstIn.trans hrst) (hblock.env.trans henv) rfl
      (pageAddress p) 256
  refine ⟨t, u, hwrite, hread, hresp, hdata.trans ?_⟩
  rw [show t.rdata = s.rdata from hrdata (fun _ _ => by simp) fun _ => by simp]
  congr 1
  refine List.ext_getElem (by simpa using hlen) fun k hk _ => ?_
  have hk' : k < 256 := hlen ▸ hk
  have hbyte := (hbytes k hk').1 (by rw [hdev]; exact hu)
    (by rw [hdev, ha]; exact Nat.lt_of_lt_of_le (Nat.add_lt_add_left hk' _) hcap)
  have hprog := Device.complete_read_programmed (d := t.dev) (by rw [hdev]; exact hwf) (by rw [hdev]) (by omega) hk'
    (by rw [hdev, ha]; exact herased k hk') n
  rw [← List.getD_eq_getElem _ 0, ← List.getD_eq_getElem _ 0]
  exact hbyte.trans hprog

end Sys2Proof.Machine
end

section
/-! PROOFS. The round trips of the encodings: decoding the code of an instruction gives the instruction, and a frame or
a request word that decodes is the code of its instruction. -/

namespace Sys2Proof

/-! ## Codes written out, and the round trip from an instruction (30_encoding R90, R92, R100, R103) -/

/-- Settles O1: each code is decoded by evaluation. -/
theorem writtenOutWordsDecode : Obligations.WrittenOutWordsDecode := by
  unfold Obligations.WrittenOutWordsDecode
  decide

/-- Settles O2, by the round trip of each frame format and of each form of request word. -/
theorem decodeOfEncodeIsTheInstruction : Obligations.DecodeOfEncodeIsTheInstruction :=
  fun _ hwf => decode_encode hwf

/-! ## A frame that decodes (30_encoding R90, R93) -/

/-- The bytes of an address put together are sent as those bytes again (20_memory R54). -/
theorem addr4_joinAddr (a3 a2 a1 a0 : Byte) : addr4 (joinAddr a3 a2 a1 a0) = [a3, a2, a1, a0] := by
  have h3 := a3.isLt
  have h2 := a2.isLt
  have h1 := a1.isLt
  have h0 := a0.isLt
  simp only [addr4, List.cons.injEq, and_true]
  refine ⟨?_, ?_, ?_, ?_⟩ <;> apply BitVec.eq_of_toNat_eq <;>
    simp only [BitVec.extractLsb'_toNat, joinAddr_toNat, Nat.shiftRight_eq_div_pow] <;> omega

theorem decodeSrFrame_ok {i j : Instr} {rest : List Byte} (h : decodeSrFrame i rest = .ok j) :
    j = i ∧ rest = [Config.fill] := by
  simp only [decodeSrFrame] at h
  split at h
  · split_ifs at h with hb
    cases h
    exact ⟨rfl, hb ▸ rfl⟩
  · cases h

theorem decodeCmdFrame_ok {i j : Instr} {rest : List Byte} (h : decodeCmdFrame i rest = .ok j) :
    j = i ∧ rest = [] := by
  cases rest with
  | nil => cases h; exact ⟨rfl, rfl⟩
  | cons b bs => cases h

theorem decodeIdFrame_ok {j : Instr} {rest : List Byte} (h : decodeIdFrame rest = .ok j) :
    j = .encId ∧ rest = List.replicate 4 Config.fill := by
  simp only [decodeIdFrame] at h
  split at h
  · split_ifs at h with hb
    cases h
    exact ⟨rfl, hb⟩
  · cases h

theorem decodeReadFrame_ok {j : Instr} {rest : List Byte} (h : decodeReadFrame rest = .ok j) :
    ∃ (a : BitVec 32) (n : BitVec 16), j = .encRead a n ∧ rest = addr4 a ++ List.replicate n.toNat Config.fill := by
  simp only [decodeReadFrame] at h
  split at h
  · next a3 a2 a1 a0 fill =>
    split_ifs at h with hlen hfill
    cases h
    refine ⟨_, _, rfl, ?_⟩
    rw [addr4_joinAddr, BitVec.toNat_ofNat, Nat.mod_eq_of_lt hlen]
    have hrep : fill = List.replicate fill.length Config.fill :=
      List.eq_replicate_iff.mpr ⟨rfl, by simpa using hfill⟩
    rw [← hrep]
    rfl
  · cases h

theorem decodeProgFrame_ok {j : Instr} {rest : List Byte} (h : decodeProgFrame rest = .ok j) :
    ∃ (a : BitVec 32) (d : List Byte), j = .encProg a d ∧ d.length = Config.pageSize ∧ rest = addr4 a ++ d := by
  simp only [decodeProgFrame] at h
  split at h
  · split_ifs at h with hlen
    cases h
    exact ⟨_, _, rfl, hlen, by rw [addr4_joinAddr]; rfl⟩
  · cases h

theorem decodeEraseFrame_ok {j : Instr} {rest : List Byte} (h : decodeEraseFrame rest = .ok j) :
    ∃ a : BitVec 32, j = .encErase a ∧ rest = addr4 a := by
  simp only [decodeEraseFrame] at h
  split at h
  · cases h
    exact ⟨_, rfl, (addr4_joinAddr _ _ _ _).symm⟩
  · cases h

/-- A value is known by its number. -/
theorem eq_ofNat_of_toNat_eq {w k : Nat} {x : BitVec w} (h : x.toNat = k) : x = BitVec.ofNat w k := by
  rw [← h, BitVec.ofNat_toNat, BitVec.setWidth_eq]

/-- A frame that decodes is the frame of its instruction (R92). -/
theorem encode_of_decodeFrame {tx : List Byte} {i : Instr} (h : decodeFrame tx = .ok i) :
    encode i = .frame tx ∧ WellFormed i := by
  cases tx with
  | nil => cases h
  | cons op rest =>
    simp only [decodeFrame] at h
    split at h
    iterate 3
      · next hop =>
        obtain rfl := eq_ofNat_of_toNat_eq hop
        obtain ⟨rfl, rfl⟩ := decodeSrFrame_ok h
        exact ⟨rfl, rfl⟩
    iterate 2
      · next hop =>
        obtain rfl := eq_ofNat_of_toNat_eq hop
        obtain ⟨rfl, rfl⟩ := decodeCmdFrame_ok h
        exact ⟨rfl, rfl⟩
    · next hop =>
      obtain rfl := eq_ofNat_of_toNat_eq hop
      obtain ⟨rfl, rfl⟩ := decodeIdFrame_ok h
      exact ⟨rfl, rfl⟩
    · next hop =>
      obtain rfl := eq_ofNat_of_toNat_eq hop
      obtain ⟨a, n, rfl, rfl⟩ := decodeReadFrame_ok h
      exact ⟨rfl, rfl⟩
    · next hop =>
      obtain rfl := eq_ofNat_of_toNat_eq hop
      obtain ⟨a, d, rfl, hlen, rfl⟩ := decodeProgFrame_ok h
      exact ⟨rfl, beq_iff_eq.mpr hlen⟩
    · next hop =>
      obtain rfl := eq_ofNat_of_toNat_eq hop
      obtain ⟨a, rfl, rfl⟩ := decodeEraseFrame_ok h
      exact ⟨rfl, rfl⟩
    · cases h

/-! ## A request word that decodes (30_encoding R100 to R103) -/

/-- A request word is known by its five fields (R100). -/
theorem eq_packReq_iff {w : BitVec 64} {op : BitVec 5} {which : BitVec 2} {len : BitVec 16} {arg : BitVec 32} :
    w = packReq op which len arg ↔
      reqOp w = op ∧ reqWhich w = which ∧ reqReserved w = 0#9 ∧ reqLen w = len ∧ reqArg w = arg := by
  constructor
  · rintro rfl
    simp
  · rintro ⟨rfl, rfl, hres, rfl, rfl⟩
    have hw := w.isLt
    have hzero : w.toNat >>> 7 % 2 ^ 9 = 0 := congrArg BitVec.toNat hres
    apply BitVec.eq_of_toNat_eq
    rw [Nat.shiftRight_eq_div_pow] at hzero
    simp only [packReq_toNat, reqOp, reqWhich, reqLen, reqArg, BitVec.extractLsb'_toNat, Nat.shiftRight_eq_div_pow]
    omega

/-- A value whose high bits are 0 is its low bits, widened. -/
theorem eq_setWidth_of_high_eq_zero {m n : Nat} {x : BitVec (m + n)} (h : x.extractLsb' m n = 0#n) :
    x = (x.extractLsb' 0 m).setWidth (m + n) := by
  ext j hj
  by_cases hjm : j < m
  · simp [hjm, BitVec.getLsbD_eq_getElem hj]
  · have hbit := congrArg (BitVec.getLsbD · (j - m)) h
    simpa [hjm, show j - m < n by omega, show m + (j - m) = j by omega, BitVec.getLsbD_eq_getElem hj] using hbit

/-- What a chain of checks accepts has passed its first check and those after it. -/
theorem check_eq_ok_iff {c : Prop} [Decidable c] {e : DecodeError} {x : Except DecodeError Instr} {j : Instr} :
    (if c then x else .error e) = .ok j ↔ c ∧ x = .ok j := by
  split_ifs with h <;> simp [h]

theorem decodePlain_ok_iff {w : BitVec 64} {i j : Instr} :
    decodePlain w i = .ok j ↔ reqWhich w = 0#2 ∧ reqLen w = 0#16 ∧ reqArg w = 0#32 ∧ i = j := by
  simp [decodePlain, check_eq_ok_iff]

theorem which_cases (which : BitVec 2) : which = 0#2 ∨ which = 1#2 ∨ which = 2#2 ∨ which = 3#2 := by
  revert which
  decide

theorem decodeReadSr_ok_iff {w : BitVec 64} {j : Instr} :
    decodeReadSr w = .ok j ↔ reqLen w = 0#16 ∧ reqArg w = 0#32 ∧
      (reqWhich w = 1#2 ∧ j = .readSr1 ∨ reqWhich w = 2#2 ∧ j = .readSr2 ∨ reqWhich w = 3#2 ∧ j = .readSr3) := by
  simp only [decodeReadSr, ne_eq, ite_not, check_eq_ok_iff]
  rcases which_cases (reqWhich w) with h | h | h | h <;> simp [h, eq_comm]

theorem decodeReadRaw_ok_iff {w : BitVec 64} {j : Instr} :
    decodeReadRaw w = .ok j ↔ reqWhich w = 0#2 ∧ .readRaw (reqArg w) (reqLen w) = j := by
  simp [decodeReadRaw, check_eq_ok_iff]

theorem decodeAddrOp_ok_iff {w : BitVec 64} {build : BitVec 32 → Instr} {j : Instr} :
    decodeAddrOp w build = .ok j ↔ reqWhich w = 0#2 ∧ reqLen w = 0#16 ∧ build (reqArg w) = j := by
  simp [decodeAddrOp, check_eq_ok_iff]

theorem decodePageOp_ok_iff {w : BitVec 64} {build : BitVec 24 → Instr} {j : Instr} :
    decodePageOp w build = .ok j ↔
      reqWhich w = 0#2 ∧ reqLen w = 0#16 ∧ (reqArg w).extractLsb' 24 8 = 0#8 ∧
        build ((reqArg w).extractLsb' 0 24) = j := by
  simp [decodePageOp, check_eq_ok_iff]

theorem decodeSectorOp_ok_iff {w : BitVec 64} {build : BitVec 20 → Instr} {j : Instr} :
    decodeSectorOp w build = .ok j ↔
      reqWhich w = 0#2 ∧ reqLen w = 0#16 ∧ (reqArg w).extractLsb' 20 12 = 0#12 ∧
        build ((reqArg w).extractLsb' 0 20) = j := by
  simp [decodeSectorOp, check_eq_ok_iff]

/-! Each form of request word, once its OP is known. -/

section
variable {w : BitVec 64} {k : Nat} (hres : reqReserved w = 0#9) (hop : (reqOp w).toNat = k)
include hres hop

theorem decodePlain_word {i j : Instr} (h : decodePlain w i = .ok j) : j = i ∧ w = packOp (BitVec.ofNat 5 k) := by
  obtain ⟨hwhich, hlen, harg, rfl⟩ := decodePlain_ok_iff.mp h
  exact ⟨rfl, eq_packReq_iff.mpr ⟨eq_ofNat_of_toNat_eq hop, hwhich, hres, hlen, harg⟩⟩

theorem decodeReadSr_word {j : Instr} (h : decodeReadSr w = .ok j) :
    ∃ which : BitVec 2, w = packReq (BitVec.ofNat 5 k) which 0 0 ∧
      (which = 1#2 ∧ j = .readSr1 ∨ which = 2#2 ∧ j = .readSr2 ∨ which = 3#2 ∧ j = .readSr3) := by
  obtain ⟨hlen, harg, hwhich⟩ := decodeReadSr_ok_iff.mp h
  exact ⟨_, eq_packReq_iff.mpr ⟨eq_ofNat_of_toNat_eq hop, rfl, hres, hlen, harg⟩, hwhich⟩

theorem decodeReadRaw_word {j : Instr} (h : decodeReadRaw w = .ok j) :
    ∃ a n, j = .readRaw a n ∧ w = packReq (BitVec.ofNat 5 k) 0 n a := by
  obtain ⟨hwhich, rfl⟩ := decodeReadRaw_ok_iff.mp h
  exact ⟨_, _, rfl, eq_packReq_iff.mpr ⟨eq_ofNat_of_toNat_eq hop, hwhich, hres, rfl, rfl⟩⟩

theorem decodeAddrOp_word {build : BitVec 32 → Instr} {j : Instr} (h : decodeAddrOp w build = .ok j) :
    ∃ a, j = build a ∧ w = packReq (BitVec.ofNat 5 k) 0 0 a := by
  obtain ⟨hwhich, hlen, rfl⟩ := decodeAddrOp_ok_iff.mp h
  exact ⟨_, rfl, eq_packReq_iff.mpr ⟨eq_ofNat_of_toNat_eq hop, hwhich, hres, hlen, rfl⟩⟩

theorem decodePageOp_word {build : BitVec 24 → Instr} {j : Instr} (h : decodePageOp w build = .ok j) :
    ∃ p, j = build p ∧ w = packPage (BitVec.ofNat 5 k) p := by
  obtain ⟨hwhich, hlen, hhigh, rfl⟩ := decodePageOp_ok_iff.mp h
  exact ⟨_, rfl, eq_packReq_iff.mpr
    ⟨eq_ofNat_of_toNat_eq hop, hwhich, hres, hlen, eq_setWidth_of_high_eq_zero (n := 8) hhigh⟩⟩

theorem decodeSectorOp_word {build : BitVec 20 → Instr} {j : Instr} (h : decodeSectorOp w build = .ok j) :
    ∃ m, j = build m ∧ w = packSector (BitVec.ofNat 5 k) m := by
  obtain ⟨hwhich, hlen, hhigh, rfl⟩ := decodeSectorOp_ok_iff.mp h
  exact ⟨_, rfl, eq_packReq_iff.mpr
    ⟨eq_ofNat_of_toNat_eq hop, hwhich, hres, hlen, eq_setWidth_of_high_eq_zero (n := 12) hhigh⟩⟩

end

/-- A word decodes exactly when its reserved bits are 0 and its OP accepts the other fields (R104). -/
theorem decodeReq_ok_iff {w : BitVec 64} {i : Instr} :
    decode (.req w) = .ok i ↔ reqReserved w = 0#9 ∧ decodeOp w = .ok i := by
  simp [decode, decodeReq, check_eq_ok_iff]

/-- A word whose reserved bits are 0 and whose OP decodes is the request word of its operation (R102, R103). -/
theorem encode_of_decodeOp {w : BitVec 64} {i : Instr} (hres : reqReserved w = 0#9) (h : decodeOp w = .ok i) :
    encode i = .req w ∧ WellFormed i := by
  simp only [decodeOp] at h
  split at h
  · next hop => obtain ⟨rfl, rfl⟩ := decodePlain_word hres hop h; exact ⟨rfl, rfl⟩
  · next hop =>
    obtain ⟨which, rfl, hwhich⟩ := decodeReadSr_word hres hop h
    rcases hwhich with ⟨rfl, rfl⟩ | ⟨rfl, rfl⟩ | ⟨rfl, rfl⟩ <;> exact ⟨rfl, rfl⟩
  iterate 7
    · next hop => obtain ⟨rfl, rfl⟩ := decodePlain_word hres hop h; exact ⟨rfl, rfl⟩
  · next hop => obtain ⟨a, n, rfl, rfl⟩ := decodeReadRaw_word hres hop h; exact ⟨rfl, rfl⟩
  iterate 2
    · next hop => obtain ⟨a, rfl, rfl⟩ := decodeAddrOp_word hres hop h; exact ⟨rfl, rfl⟩
  iterate 2
    · next hop => obtain ⟨p, rfl, rfl⟩ := decodePageOp_word hres hop h; exact ⟨rfl, rfl⟩
  · next hop => obtain ⟨m, rfl, rfl⟩ := decodeSectorOp_word hres hop h; exact ⟨rfl, rfl⟩
  iterate 2
    · next hop => obtain ⟨p, rfl, rfl⟩ := decodePageOp_word hres hop h; exact ⟨rfl, rfl⟩
  · next hop => obtain ⟨m, rfl, rfl⟩ := decodeSectorOp_word hres hop h; exact ⟨rfl, rfl⟩
  · next hop => obtain ⟨p, rfl, rfl⟩ := decodePageOp_word hres hop h; exact ⟨rfl, rfl⟩
  · cases h

/-- Settles O3: a frame by its opcode's format, a request word by its OP's form once the reserved bits are 0. -/
theorem encodeOfDecodeIsTheCode : Obligations.EncodeOfDecodeIsTheCode := by
  intro c i h
  cases c with
  | frame tx => exact encode_of_decodeFrame h
  | req w =>
    obtain ⟨hres, hop⟩ := decodeReq_ok_iff.mp h
    exact encode_of_decodeOp hres hop

end Sys2Proof
end

section
/-! PROOFS. The request words of 30_encoding R103 and R104, and what a step does with an illegal one and with a program
request that has no data; the response word that answers. -/

namespace Sys2Proof

/-! ## The rows of R103 by their fields -/

/-- A mask of R103: OP, WHICH and the reserved bits whole, and the given bits of LEN and ARG. -/
def rowMask (len : BitVec 16) (arg : BitVec 32) : BitVec 64 := arg ++ len ++ BitVec.allOnes 16

/-- The rows of R103, each word and each mask put together from its fields. -/
theorem hostRows_eq : hostRows =
    [(packOp 0x01, rowMask 0xFFFF 0xFFFFFFFF), (packReq 0x02 1 0 0, rowMask 0xFFFF 0xFFFFFFFF),
     (packReq 0x02 2 0 0, rowMask 0xFFFF 0xFFFFFFFF), (packReq 0x02 3 0 0, rowMask 0xFFFF 0xFFFFFFFF),
     (packOp 0x03, rowMask 0xFFFF 0xFFFFFFFF), (packOp 0x04, rowMask 0xFFFF 0xFFFFFFFF),
     (packOp 0x05, rowMask 0xFFFF 0xFFFFFFFF), (packOp 0x06, rowMask 0xFFFF 0xFFFFFFFF),
     (packOp 0x07, rowMask 0xFFFF 0xFFFFFFFF), (packOp 0x08, rowMask 0xFFFF 0xFFFFFFFF),
     (packOp 0x09, rowMask 0xFFFF 0xFFFFFFFF), (packOp 0x0A, rowMask 0 0), (packOp 0x0B, rowMask 0xFFFF 0),
     (packOp 0x0C, rowMask 0xFFFF 0), (packOp 0x0D, rowMask 0xFFFF 0xFF000000),
     (packOp 0x0E, rowMask 0xFFFF 0xFF000000), (packOp 0x0F, rowMask 0xFFFF 0xFFF00000),
     (packOp 0x10, rowMask 0xFFFF 0xFF000000), (packOp 0x11, rowMask 0xFFFF 0xFF000000),
     (packOp 0x12, rowMask 0xFFFF 0xFFF00000), (packOp 0x13, rowMask 0xFFFF 0xFF000000)] := by
  decide

/-- OP, WHICH and the reserved bits are not masked. -/
theorem extractLsb'_and_rowMask_low (w : BitVec 64) (len : BitVec 16) (arg : BitVec 32) {i n : Nat} (h : i + n ≤ 16) :
    (w &&& rowMask len arg).extractLsb' i n = w.extractLsb' i n := by
  have hones : (BitVec.allOnes 16).extractLsb' i n = BitVec.allOnes n := by
    ext j hj
    simp [show i + j < 16 by omega, -BitVec.reduceAllOnes]
  rw [BitVec.extractLsb'_and, rowMask, BitVec.extractLsb'_append_eq_of_add_le h, hones, BitVec.and_allOnes]

@[simp] theorem reqOp_and_rowMask (w : BitVec 64) (len : BitVec 16) (arg : BitVec 32) :
    reqOp (w &&& rowMask len arg) = reqOp w := extractLsb'_and_rowMask_low w len arg (by decide)

@[simp] theorem reqWhich_and_rowMask (w : BitVec 64) (len : BitVec 16) (arg : BitVec 32) :
    reqWhich (w &&& rowMask len arg) = reqWhich w := extractLsb'_and_rowMask_low w len arg (by decide)

@[simp] theorem reqReserved_and_rowMask (w : BitVec 64) (len : BitVec 16) (arg : BitVec 32) :
    reqReserved (w &&& rowMask len arg) = reqReserved w := extractLsb'_and_rowMask_low w len arg (by decide)

@[simp] theorem reqLen_and_rowMask (w : BitVec 64) (len : BitVec 16) (arg : BitVec 32) :
    reqLen (w &&& rowMask len arg) = reqLen w &&& len := by
  rw [reqLen, BitVec.extractLsb'_and, rowMask, BitVec.extractLsb'_append_eq_of_le (by decide),
    BitVec.extractLsb'_append_eq_right]
  rfl

@[simp] theorem reqArg_and_rowMask (w : BitVec 64) (len : BitVec 16) (arg : BitVec 32) :
    reqArg (w &&& rowMask len arg) = reqArg w &&& arg := by
  rw [reqArg, BitVec.extractLsb'_and, rowMask, BitVec.extractLsb'_append_eq_of_le (by decide),
    BitVec.extractLsb'_append_eq_left]
  rfl

/-- A row is compared field by field. -/
theorem and_rowMask_eq_packReq_iff {w : BitVec 64} {op : BitVec 5} {which : BitVec 2} {len len' : BitVec 16}
    {arg arg' : BitVec 32} :
    w &&& rowMask len arg = packReq op which len' arg' ↔
      (reqOp w).toNat = op.toNat ∧ reqWhich w = which ∧ reqReserved w = 0#9 ∧ reqLen w &&& len = len' ∧
        reqArg w &&& arg = arg' := by
  simp [eq_packReq_iff, BitVec.toNat_inj]

/-- The bits above a position are masked out exactly when they are 0. -/
theorem and_highMask_eq_zero_iff {m n : Nat} {x : BitVec (m + n)} :
    x &&& BitVec.allOnes (m + n) <<< m = 0#(m + n) ↔ x.extractLsb' m n = 0#n := by
  constructor
  · intro h
    ext j hj
    have hbit := congrArg (BitVec.getLsbD · (m + j)) h
    simpa [hj] using hbit
  · intro h
    rw [eq_setWidth_of_high_eq_zero h]
    ext j hj
    by_cases hjm : j < m <;> simp [hjm]

@[simp] theorem and_wholeLen (x : BitVec 16) : x &&& 0xFFFF#16 = x := BitVec.and_allOnes

@[simp] theorem and_wholeArg (x : BitVec 32) : x &&& 0xFFFFFFFF#32 = x := BitVec.and_allOnes

@[simp] theorem and_pageMask_eq_zero_iff {x : BitVec 32} :
    x &&& 0xFF000000#32 = 0#32 ↔ x.extractLsb' 24 8 = 0#8 := and_highMask_eq_zero_iff (m := 24) (n := 8)

@[simp] theorem and_sectorMask_eq_zero_iff {x : BitVec 32} :
    x &&& 0xFFF00000#32 = 0#32 ↔ x.extractLsb' 20 12 = 0#12 := and_highMask_eq_zero_iff (m := 20) (n := 12)

/-- Settles O4, one OP at a time: of the rows that name the OP of the word, each asks what the decoder asks. -/
theorem requestIsLegalIffARowMatches : Obligations.RequestIsLegalIffARowMatches := by
  intro w
  simp only [hostRows_eq, packOp, List.mem_cons, List.not_mem_nil, or_false, exists_eq_or_imp, exists_eq_left,
    and_rowMask_eq_packReq_iff, decodeReq_ok_iff, exists_and_left]
  by_cases hres : reqReserved w = 0#9
  · simp only [decodeOp, hres]
    split
    · next hop => simp [hop, decodePlain_ok_iff]
    · next hop =>
      rcases which_cases (reqWhich w) with h | h | h | h <;> simp [hop, h, decodeReadSr_ok_iff]
    iterate 7
      · next hop => simp [hop, decodePlain_ok_iff]
    · next hop => simp [hop, decodeReadRaw_ok_iff]
    iterate 2
      · next hop => simp [hop, decodeAddrOp_ok_iff]
    iterate 2
      · next hop => simp [hop, decodePageOp_ok_iff]
    · next hop => simp [hop, decodeSectorOp_ok_iff]
    iterate 2
      · next hop => simp [hop, decodePageOp_ok_iff]
    · next hop => simp [hop, decodeSectorOp_ok_iff]
    · next hop => simp [hop, decodePageOp_ok_iff]
    · simp only [imp_false] at *
      simp [*]
  · simp [hres]

/-! ## Illegal requests (R104, 60_exceptions R205) -/

/-- Decoding fails exactly where it gives no instruction. -/
theorem exists_error_iff {x : Except DecodeError Instr} : (∃ e, x = .error e) ↔ ¬ ∃ i, x = .ok i := by
  cases x <;> simp

theorem reqArg_extractLsb' (w : BitVec 64) {i n : Nat} (h : i + n ≤ 32) :
    (reqArg w).extractLsb' i n = w.extractLsb' (32 + i) n := by
  ext j hj
  simp [reqArg, show i + j < 32 by omega, Nat.add_assoc]

/-- The words that do not decode, one OP at a time (R104). -/
theorem decodeOp_error_iff (w : BitVec 64) : (∃ e, decodeOp w = .error e) ↔
    ((reqOp w).toNat = 0 ∨ 0x14 ≤ (reqOp w).toNat) ∨
    ((reqOp w).toNat ≠ 2 ∧ reqWhich w ≠ 0#2) ∨
    ((reqOp w).toNat = 2 ∧ reqWhich w = 0#2) ∨
    ((reqOp w).toNat ≠ 0x0A ∧ reqLen w ≠ 0#16) ∨
    ((reqOp w).toNat ≤ 9 ∧ reqArg w ≠ 0#32) ∨
    ((reqOp w).toNat ∈ [0x0D, 0x0E, 0x10, 0x11, 0x13] ∧ (reqArg w).extractLsb' 24 8 ≠ 0#8) ∨
    ((reqOp w).toNat ∈ [0x0F, 0x12] ∧ (reqArg w).extractLsb' 20 12 ≠ 0#12) := by
  rw [exists_error_iff]
  simp only [decodeOp]
  split
  · next hop => simp [hop, decodePlain_ok_iff, -not_and, not_and_or]
  · next hop =>
    rcases which_cases (reqWhich w) with h | h | h | h <;>
      simp [hop, h, decodeReadSr_ok_iff, -not_and, not_and_or]
  iterate 7
    · next hop => simp [hop, decodePlain_ok_iff, -not_and, not_and_or]
  · next hop => simp [hop, decodeReadRaw_ok_iff]
  iterate 2
    · next hop => simp [hop, decodeAddrOp_ok_iff, -not_and, not_and_or]
  iterate 2
    · next hop => simp [hop, decodePageOp_ok_iff, -not_and, not_and_or]
  · next hop => simp [hop, decodeSectorOp_ok_iff, -not_and, not_and_or]
  iterate 2
    · next hop => simp [hop, decodePageOp_ok_iff, -not_and, not_and_or]
  · next hop => simp [hop, decodeSectorOp_ok_iff, -not_and, not_and_or]
  · next hop => simp [hop, decodePageOp_ok_iff, -not_and, not_and_or]
  · simp only [imp_false] at *
    exact iff_of_true (by simp) (Or.inl (by omega))

theorem decodeReq_error_iff (w : BitVec 64) :
    (∃ e, decode (.req w) = .error e) ↔ reqReserved w ≠ 0#9 ∨ ∃ e, decodeOp w = .error e := by
  rw [exists_error_iff, exists_error_iff]
  simp only [decodeReq_ok_iff, exists_and_left, not_and_or, ne_eq]

namespace Machine

/-- An illegal request is taken from the host port and answered at once (60_exceptions R205). -/
theorem step_illegal_request {s : State} {w : BitVec 64} {data : Option Page} {rest : List HostEvent} {e : DecodeError}
    (hidle : s.seqState = .idle) (hheld : s.rstHeld = 0) (hrst : s.rstIn = none)
    (hhost : s.host = .request w data :: rest) (he : decode (.req w) = .error e) :
    step s = .next ((s.takeRequest w none rest).writeResp false .illegal 0) := by
  rw [step_idle hidle hheld hrst]
  simp only [idleStep, hhost, serveRequest, he]
  exact congrArg _ (State.respond_quiet (s := s.takeRequest w none rest) hrst _ _ _)

/-- A program request without its data is left at the host port (30_encoding R105). -/
theorem step_request_without_data {s : State} {w : BitVec 64} {rest : List HostEvent} {i : Instr}
    (hidle : s.seqState = .idle) (hheld : s.rstHeld = 0) (hrst : s.rstIn = none)
    (hhost : s.host = .request w none :: rest) (hi : decode (.req w) = .ok i) (hneeds : needsData i = true) :
    step s = .next s.elapse := by
  rw [step_idle hidle hheld hrst]
  simp [idleStep, hhost, serveRequest, hi, hneeds]

/-- Settles O5: the clauses by OP, the answer by the step at an illegal request. -/
theorem illegalRequestIsAnsweredIllegal : Obligations.IllegalRequestIsAnsweredIllegal := by
  constructor
  · intro w
    rw [decodeReq_error_iff, decodeOp_error_iff, reqArg_extractLsb' w (by decide), reqArg_extractLsb' w (by decide)]
    exact or_left_comm
  · intro s w data rest e hidle hheld hrst hhost he
    exact ⟨_, step_illegal_request hidle hheld hrst hhost he, rfl, rfl, rfl, rfl, rfl, rfl, rfl, rfl⟩

/-- Settles O45: the step is a gap in which the request waits. -/
theorem programRequestNeedsItsData : Obligations.ProgramRequestNeedsItsData := by
  intro s w rest i hidle hheld hrst hhost hi hneeds
  exact ⟨_, step_request_without_data hidle hheld hrst hhost hi hneeds, hidle, rfl, rfl, rfl, rfl, rfl, rfl, rfl, rfl⟩

/-! ## The response word (R101, 60_exceptions R201) -/

theorem respVal_respWord (ok : Bool) (c : Cause) (val : BitVec 32) : respVal (respWord ok c val) = val := by
  apply BitVec.eq_of_toNat_eq
  have hc := (causeCode c).isLt
  have hv := val.isLt
  have ho := ok.toNat_lt
  simp only [respVal, BitVec.extractLsb'_toNat, respWord_toNat, Nat.shiftRight_eq_div_pow]
  omega

/-- A value put beside a smaller one is added to it. -/
theorem toNat_shiftLeft_or {x y : BitVec 64} {n : Nat} (hx : x.toNat * 2 ^ n < 2 ^ 64) (hy : y.toNat < 2 ^ n) :
    (x <<< n ||| y).toNat = x.toNat * 2 ^ n + y.toNat := by
  rw [BitVec.toNat_or, BitVec.toNat_shiftLeft, Nat.shiftLeft_eq, Nat.mod_eq_of_lt hx, ← Nat.shiftLeft_eq,
    ← Nat.shiftLeft_add_eq_or_of_lt hy]

/-- The fields of RESP shifted to their places (R101). -/
theorem respWord_eq_shifts (ok : Bool) (c : Cause) (val : BitVec 32) :
    respWord ok c val =
      val.setWidth 64 <<< 32 ||| (causeCode c).setWidth 64 <<< 4 ||| (BitVec.ofBool ok).setWidth 64 := by
  have hc := (causeCode c).isLt
  have hv := val.isLt
  have ho := ok.toNat_lt
  have hval : (val.setWidth 64).toNat = val.toNat := BitVec.toNat_setWidth_of_le (by decide)
  have hcode : ((causeCode c).setWidth 64).toNat = (causeCode c).toNat := BitVec.toNat_setWidth_of_le (by decide)
  have hok : ((BitVec.ofBool ok).setWidth 64).toNat = ok.toNat := by
    rw [BitVec.toNat_setWidth_of_le (by decide), BitVec.toNat_ofBool]
  have hlow : ((causeCode c).setWidth 64 <<< 4 ||| (BitVec.ofBool ok).setWidth 64).toNat =
      (causeCode c).toNat * 2 ^ 4 + ok.toNat := by
    rw [toNat_shiftLeft_or (by omega) (by omega), hcode, hok]
  apply BitVec.eq_of_toNat_eq
  rw [BitVec.or_assoc, toNat_shiftLeft_or (by omega) (by omega), hlow, hval, respWord_toNat, Nat.add_assoc]

/-- Settles O7: RESP by its shifts, and each field by its reading lemma; the codes of the causes are the definition. -/
theorem responseWordFields : Obligations.ResponseWordFields := by
  refine ⟨fun ok c val => ?_, rfl, rfl, rfl, rfl, rfl⟩
  exact ⟨respWord_eq_shifts ok c val, respOk_respWord ok c val, respCause_respWord ok c val, respVal_respWord ok c val,
    respWord_reserved ok c val⟩

end Machine

end Sys2Proof
end

section
/-! PROOFS. The status operations in any environment, with no pulse of RST pending: each is one status read and the
answer OK = 1 with what it reads (41_status_decoder R140 to R145). -/

namespace Sys2Proof.Machine

/-- An operation of one status read writes neither RDATA nor a loop register. -/
theorem sameData_of_serve_srQuery {s t : State} (hrst : s.rstIn = none) {frame : List Byte}
    (hf : frame = encSr1 ∨ frame = encSr2 ∨ frame = encSr3) {f : Byte → BitVec 32}
    (h : serve (srQuery frame fun b => .respond true .none (f b)) s = .next t) : SameData s t := by
  obtain ⟨u, ⟨ok, c, val, hrun⟩, hu, -⟩ := srQuery_endsIn (s := s.start) hrst hf
    (k := fun b => .respond true .none (f b)) fun b => ⟨true, .none, f b, rfl⟩
  rw [serve_eq, hrun] at h
  cases h
  exact ⟨hu.rdata, hu.loopS, hu.loopLast⟩

/-- An instruction that is one status read and the answer `f` of the byte read needs no precondition: it always answers
OK = 1, and changes neither the device nor the data registers (R145). -/
theorem exec_statusRead {i : Instr} {s : State} (hrst : s.rstIn = none) {frame : List Byte}
    (hf : frame = encSr1 ∨ frame = encSr2 ∨ frame = encSr3) {f : Byte → BitVec 32}
    (hi : exec i s = serve (srQuery frame fun b => .respond true .none (f b)) s) :
    ∃ t rx, exec i s = .next t ∧ rx.length = 2 ∧ Answered s t [sent frame rx] true .none (f (rx.getD 1 0)) ∧
      SameData s t ∧ t.dev = s.elapse.dev := by
  have hlen : frame.length = 2 := by rcases hf with rfl | rfl | rfl <;> rfl
  obtain ⟨t, hserve, hdev, ht⟩ := serve_srQuery_answered hrst hf f
  exact ⟨t, s.elapse.answer frame, hi.trans hserve, (State.answer_length _ _).trans hlen, ht,
    sameData_of_serve_srQuery hrst hf hserve, hdev⟩

/-- Settles O19: each of the six operations is one status read, of SR1, SR2 or SR3, and its answer. -/
theorem statusOperationsNeverFail : Obligations.StatusOperationsNeverFail := by
  intro q hq s hrst
  simp only [List.mem_cons, List.not_mem_nil, or_false] at hq
  obtain rfl | rfl | rfl | rfl | rfl | rfl := hq
  · exact exec_statusRead (i := .readSr1) hrst (.inl rfl) (f := byteVal) rfl
  · exact exec_statusRead (i := .readSr2) hrst (.inr (.inl rfl)) (f := byteVal) rfl
  · exact exec_statusRead (i := .readSr3) hrst (.inr (.inr rfl)) (f := byteVal) rfl
  · exact exec_statusRead (i := .busy) hrst (.inl rfl) (f := fun b => boolVal (busyBit b)) rfl
  · exact exec_statusRead (i := .writeEnabled) hrst (.inl rfl) (f := fun b => boolVal (welBit b)) rfl
  · exact exec_statusRead (i := .addrMode4b) hrst (.inr (.inr rfl)) (f := fun b => boolVal (adsBit b)) rfl

end Sys2Proof.Machine
end

section
/-! PROOFS. The Command Issuer's operations with no pulse of RST pending. In any environment each is the busy check, and
after a check that passes the transactions of its sequence and the answer that goes with what they received
(42_command_issuer R150 to R157); at the reference device a failed check ends it and leaves the device alone. -/

namespace Sys2Proof.Machine

/-! ## From acceptance to the response -/

/-- `u` is reached from `s` by exactly the transactions `xs`, with RDATA and the loop registers as they were. -/
structure Trail (s u : State) (xs : List BusXact) : Prop where
  via : Via s u xs
  data : SameData s u

theorem Trail.start (s : State) : Trail s s.start [] := ⟨Via.start s, SameData.start s⟩

theorem Trail.after {s u : State} {xs : List BusXact} (h : Trail s u xs) (tx : List Byte) :
    Trail s (u.after tx) (xs ++ [sent tx (u.elapse.answer tx)]) :=
  ⟨h.via.after tx, h.data.after tx⟩

theorem SameData.refl (s : State) : SameData s s := ⟨rfl, rfl, rfl⟩

theorem Via.rstIn {s u : State} {xs : List BusXact} (h : Via s u xs) (hrst : s.rstIn = none) : u.rstIn = none :=
  h.block.rstIn.trans hrst

/-- A response at the end of a trail. -/
theorem Trail.respond {s u : State} {xs : List BusXact} (h : Trail s u xs) (hrst : s.rstIn = none) (ok : Bool)
    (c : Cause) (val : BitVec 32) :
    SameData s (u.respond ok c val) ∧ Answered s (u.respond ok c val) xs ok c val :=
  ⟨h.data.respond (h.via.rstIn hrst) ok c val, h.via.respond (h.via.rstIn hrst) ok c val⟩

/-! ## Mode setting (R151, R152, 45_lifecycle R195) -/

/-- The answer that goes with the bit the re-read finds. -/
theorem respondPlain_verified (b : Bool) (u : State) :
    (if b then (respondPlain true .none).run u else (respondPlain false .verifyFailed).run u) =
      (respondPlain b (if b then .none else .verifyFailed)).run u := by
  cases b <;> rfl

/-- A mode-setting operation: the busy check, then the command and the re-read, of which `bit` is looked at. -/
theorem serve_reread_answered {s : State} (hrst : s.rstIn = none) {p : Prog} {command frame : List Byte}
    {bit : Byte → Bool}
    (hrun : p.run s.start =
      if busyBit s.start.readsSr1 then (respondPlain false .busy).run (s.start.after encSr1)
      else if bit ((((s.start.after encSr1).after command).elapse.answer frame).getD 1 0) then
        (respondPlain true .none).run (((s.start.after encSr1).after command).after frame)
      else (respondPlain false .verifyFailed).run (((s.start.after encSr1).after command).after frame)) :
    ∃ t rx1, serve p s = .next t ∧ rx1.length = 2 ∧ SameData s t ∧
      ((busyBit (rx1.getD 1 0) = true ∧ Answered s t [sent encSr1 rx1] false .busy 0) ∨
      (busyBit (rx1.getD 1 0) = false ∧ ∃ rx2 rx3, rx2.length = command.length ∧ rx3.length = frame.length ∧
        Answered s t [sent encSr1 rx1, sent command rx2, sent frame rx3] (bit (rx3.getD 1 0))
          (if bit (rx3.getD 1 0) then .none else .verifyFailed) 0)) := by
  have hcheck := (Trail.start s).after encSr1
  cases hb : busyBit s.start.readsSr1
  · rw [hb, if_neg Bool.false_ne_true, respondPlain_verified] at hrun
    obtain ⟨hdata, hanswer⟩ := ((hcheck.after command).after frame).respond hrst _ _ 0
    exact ⟨_, _, serve_of_run hrun, State.answer_length _ _, hdata,
      .inr ⟨hb, _, _, State.answer_length _ _, State.answer_length _ _, hanswer⟩⟩
  · obtain ⟨hdata, hanswer⟩ := hcheck.respond hrst false .busy 0
    rw [hb, if_pos rfl] at hrun
    exact ⟨_, _, serve_of_run hrun, State.answer_length _ _, hdata, .inl ⟨hb, hanswer⟩⟩

/-- Settles O21: BEGIN is ENTER_4B on the bus, which re-reads ADS; ENABLE_WRITE re-reads WEL. -/
theorem modeSettingIsVerifiedByRereading : Obligations.ModeSettingIsVerifiedByRereading := by
  intro q hq s hrst
  simp only [List.mem_cons, List.not_mem_nil, or_false] at hq
  have h4b := serve_reread_answered hrst (bit := adsBit) (enter4bSeq_run_quiet (s := s.start) hrst respondPlain)
  obtain rfl | rfl | rfl := hq
  · exact h4b
  · exact h4b
  · exact serve_reread_answered hrst (bit := welBit) (enableWriteSeq_run_quiet (s := s.start) hrst respondPlain)

/-! ## Identity (R153, 45_lifecycle R196, R197) -/

/-- Settles O23: both operations are the identity sequence, and differ in the answer they make of its result. -/
theorem identityOperations : Obligations.IdentityOperations := by
  intro s hrst
  have hreadId := readIdSeq_run_quiet (s := s.start) hrst fun ok c id => .respond ok c (byteVal id)
  have hworks := readIdSeq_run_quiet (s := s.start) hrst
    fun ok _ id => .respond true .none (boolVal (ok && id == Config.expectedId))
  have hcheck := (Trail.start s).after encSr1
  cases hb : busyBit s.start.readsSr1
  · rw [hb, if_neg Bool.false_ne_true] at hreadId hworks
    have hread := hcheck.after encId
    obtain ⟨hdataR, hanswerR⟩ := hread.respond hrst true .none _
    obtain ⟨hdataW, hanswerW⟩ := hread.respond hrst true .none _
    rw [Bool.true_and, boolVal_eq_expectedId] at hworks
    exact ⟨_, _, _, serve_of_run hreadId, serve_of_run hworks, State.answer_length _ _, hdataR, hdataW,
      .inr ⟨hb, _, State.answer_length _ _, hanswerR, hanswerW⟩⟩
  · rw [hb, if_pos rfl] at hreadId hworks
    obtain ⟨hdataR, hanswerR⟩ := hcheck.respond hrst false .busy 0
    obtain ⟨hdataW, hanswerW⟩ := hcheck.respond hrst true .none 0
    exact ⟨_, _, _, serve_of_run hreadId, serve_of_run hworks, State.answer_length _ _, hdataR, hdataW,
      .inl ⟨hb, hanswerR, hanswerW⟩⟩

/-! ## Reads (R154, 44_sequencer R181) -/

/-- A read operation: the busy check, then one read frame, of whose answer the bytes after the fifth go to RDATA. -/
theorem serve_readRawSeq_answered {s : State} (hrst : s.rstIn = none) (a : BitVec 32) (n : Nat) :
    ∃ t rx1, serve (readRawSeq a n respondPlain) s = .next t ∧ rx1.length = 2 ∧ t.loopS = s.loopS ∧
      t.loopLast = s.loopLast ∧
      ((busyBit (rx1.getD 1 0) = true ∧ Answered s t [sent encSr1 rx1] false .busy 0 ∧ t.rdata = s.rdata) ∨
      (busyBit (rx1.getD 1 0) = false ∧ ∃ rx2, rx2.length = 5 + n ∧
        Answered s t [sent encSr1 rx1, sent (encRead a n) rx2] true .none 0 ∧ t.rdata = s.rdata ++ rx2.drop 5)) := by
  have hrun := readRawSeq_run_quiet (s := s.start) hrst a n respondPlain
  have hcheck := (Trail.start s).after encSr1
  cases hb : busyBit s.start.readsSr1
  · rw [hb, if_neg Bool.false_ne_true] at hrun
    have hread := hcheck.after (encRead a n)
    have hemit := hread.via.emit (((s.start.after encSr1).elapse.answer (encRead a n)).drop 5)
    have hdata := (SameData.refl _).respond (hemit.rstIn hrst) true .none 0
    exact ⟨_, _, serve_of_run hrun, State.answer_length _ _, hdata.loopS.trans hread.data.loopS,
      hdata.loopLast.trans hread.data.loopLast, .inr ⟨hb, _, (State.answer_length _ _).trans (encRead_length a n),
      hemit.respond (hemit.rstIn hrst) true .none 0, hdata.rdata.trans (congrArg (· ++ _) hread.data.rdata)⟩⟩
  · obtain ⟨hdata, hanswer⟩ := hcheck.respond hrst false .busy 0
    rw [hb, if_pos rfl] at hrun
    exact ⟨_, _, serve_of_run hrun, State.answer_length _ _, hdata.loopS, hdata.loopLast,
      .inl ⟨hb, hanswer, hdata.rdata⟩⟩

/-- Settles O25: READ_PAGE is the read of 256 bytes at the address of its page. -/
theorem readsGateOnBusyOnly : Obligations.ReadsGateOnBusyOnly := by
  intro a n p q hq s hrst
  rcases List.mem_pair.mp hq with rfl | rfl
  · exact serve_readRawSeq_answered hrst a n.toNat
  · rw [← pageAddress_eq_ofNat]
    exact serve_readRawSeq_answered hrst (pageAddress p) Config.pageSize

/-! ## Programs and erases (R155, R156, 44_sequencer R182, R183) -/

/-- A program or an erase: the busy check, the write-enable check and the command, as far as the checks pass. -/
theorem serve_guardedSeq_answered {s : State} (hrst : s.rstIn = none) (command : List Byte) :
    ∃ t rx1, serve (guardedSeq command respondPlain) s = .next t ∧ rx1.length = 2 ∧ SameData s t ∧
      ((busyBit (rx1.getD 1 0) = true ∧ Answered s t [sent encSr1 rx1] false .busy 0) ∨
      (busyBit (rx1.getD 1 0) = false ∧ ∃ rx2, rx2.length = 2 ∧
        ((welBit (rx2.getD 1 0) = false ∧
          Answered s t [sent encSr1 rx1, sent encSr1 rx2] false .writeDisabled 0) ∨
        (welBit (rx2.getD 1 0) = true ∧ ∃ rx3,
          Answered s t [sent encSr1 rx1, sent encSr1 rx2, sent command rx3] true .none 0)))) := by
  have hrun := guardedSeq_run_quiet (s := s.start) hrst command respondPlain
  have hcheck := (Trail.start s).after encSr1
  cases hb : busyBit s.start.readsSr1
  · rw [hb, if_neg Bool.false_ne_true] at hrun
    cases hw : welBit (s.start.after encSr1).readsSr1
    · obtain ⟨hdata, hanswer⟩ := (hcheck.after encSr1).respond hrst false .writeDisabled 0
      rw [hw, if_neg Bool.false_ne_true] at hrun
      exact ⟨_, _, serve_of_run hrun, State.answer_length _ _, hdata,
        .inr ⟨hb, _, State.answer_length _ _, .inl ⟨hw, hanswer⟩⟩⟩
    · obtain ⟨hdata, hanswer⟩ := ((hcheck.after encSr1).after command).respond hrst true .none 0
      rw [hw, if_pos rfl] at hrun
      exact ⟨_, _, serve_of_run hrun, State.answer_length _ _, hdata,
        .inr ⟨hb, _, State.answer_length _ _, .inr ⟨hw, _, hanswer⟩⟩⟩
  · obtain ⟨hdata, hanswer⟩ := hcheck.respond hrst false .busy 0
    rw [hb, if_pos rfl] at hrun
    exact ⟨_, _, serve_of_run hrun, State.answer_length _ _, hdata, .inl ⟨hb, hanswer⟩⟩

theorem sectorAddress_eq_ofNat (m : BitVec 20) : sectorAddress m = BitVec.ofNat 32 (m.toNat * 4096) := by
  rw [← sectorAddress_toNat, BitVec.ofNat_toNat, BitVec.setWidth_eq]

/-- Settles O27: each of the four operations is the guarded sequence of its own command frame. -/
theorem programsAndErasesCheckBusyThenWriteEnable : Obligations.ProgramsAndErasesCheckBusyThenWriteEnable := by
  intro a p m s hrst q hq
  simp only [List.mem_cons, List.not_mem_nil, or_false, ← pageAddress_eq_ofNat, ← sectorAddress_eq_ofNat] at hq
  obtain rfl | rfl | rfl | rfl := hq
  · exact serve_guardedSeq_answered hrst (encProg a s.wdata.toList)
  · exact serve_guardedSeq_answered hrst (encProg (pageAddress p) s.wdata.toList)
  · exact serve_guardedSeq_answered hrst (encErase a)
  · exact serve_guardedSeq_answered hrst (encErase (sectorAddress m))

/-! ## Refusals at the reference device (R150, 60_exceptions R202, R206) -/

/-- An operation of `s` makes its first transaction from `u`: nothing has been sent, and at most LOOP_S and LOOP_LAST
have been written since its acceptance. -/
structure Begun (s u : State) : Prop where
  via : Via s u []
  rdata : u.rdata = s.rdata
  dev : u.elapse.dev = s.elapse.dev

theorem Begun.start (s : State) : Begun s s.start := ⟨Via.start s, rfl, rfl⟩

theorem Begun.setLoop {s u : State} (h : Begun s u) (i last : BitVec 20) : Begun s (u.setLoop i last) :=
  ⟨h.via.setLoop i last, h.rdata, h.dev⟩

theorem Begun.rstIn {s u : State} (h : Begun s u) (hrst : s.rstIn = none) : u.rstIn = none := h.via.rstIn hrst

theorem Begun.env {s u : State} (h : Begun s u) (henv : s.env = .reference) : u.env = .reference :=
  h.via.block.env.trans henv

/-- Each program and each erase runs a guarded sequence, which hands the cause of a failed check to the response. -/
theorem exec_eq_guardedSeq (a : BitVec 32) (p : BitVec 24) (m : BitVec 20) {i : Instr}
    (hi : i ∈ [Instr.programPage a, .eraseSector a, .writePage p, .sectorErase m, .eraseUpToPage p]) (s : State) :
    ∃ u command k, Begun s u ∧ exec i s = .next ((guardedSeq command k).run u) ∧
      ∀ c, k false c = respondPlain false c := by
  simp only [List.mem_cons, List.not_mem_nil, or_false] at hi
  obtain rfl | rfl | rfl | rfl | rfl := hi
  iterate 4
    · exact ⟨_, _, _, Begun.start s, rfl, fun _ => rfl⟩
  · refine ⟨_, _, _, (Begun.start s).setLoop _ _, congrArg _ (eraseLoop_run _ _ _), fun c => ?_⟩
    cases (sectorNumberFromPage p).toNat <;> rfl

/-- A refusal given in a state that transactions have led to from the first check. -/
theorem Begun.refused {s u v : State} {xs : List BusXact} (h : Begun s u) (hrst : s.rstIn = none) (hvia : Via s v xs)
    (hrdata : v.rdata = u.rdata) (hdev : v.dev = u.elapse.dev) (c : Cause) :
    Answered s (v.respond false c 0) xs false c 0 ∧ (v.respond false c 0).rdata = s.rdata ∧
      (v.respond false c 0).dev = s.elapse.dev := by
  have hv := hvia.rstIn hrst
  exact ⟨hvia.respond hv _ _ _, ((SameData.refl v).respond hv _ _ _).rdata.trans (hrdata.trans h.rdata),
    (State.respond_dev hv _ _ _).trans (hdev.trans h.dev)⟩

/-! The sequences on a device that is busy after the gap, as `guardedSeq_run_busy` has the program or erase. -/

section
variable {s : State} (hrst : s.rstIn = none) (henv : s.env = .reference) (hb : s.elapse.dev.busy = true)
include hrst henv hb

theorem enter4bSeq_run_busy (k : Bool → Cause → Prog) :
    (enter4bSeq k).run s = (k false .busy).run (s.after encSr1) := by
  rw [enter4bSeq_run_quiet hrst, if_pos (by rw [State.busyBit_readsSr1 henv, hb])]

theorem enableWriteSeq_run_busy (k : Bool → Cause → Prog) :
    (enableWriteSeq k).run s = (k false .busy).run (s.after encSr1) := by
  rw [enableWriteSeq_run_quiet hrst, if_pos (by rw [State.busyBit_readsSr1 henv, hb])]

theorem readIdSeq_run_busy (k : Bool → Cause → Byte → Prog) :
    (readIdSeq k).run s = (k false .busy 0).run (s.after encSr1) := by
  rw [readIdSeq_run_quiet hrst, if_pos (by rw [State.busyBit_readsSr1 henv, hb])]

theorem readRawSeq_run_busy (a : BitVec 32) (n : Nat) (k : Bool → Cause → Prog) :
    (readRawSeq a n k).run s = (k false .busy).run (s.after encSr1) := by
  rw [readRawSeq_run_quiet hrst, if_pos (by rw [State.busyBit_readsSr1 henv, hb])]

end

/-- An operation that answers BUSY after its busy check has changed neither RDATA nor the device. -/
theorem exec_refused_busy {i : Instr} {s u : State} (hu : Begun s u) (hrst : s.rstIn = none)
    (hi : exec i s = .next ((respondPlain false .busy).run (u.after encSr1))) :
    ∃ t rx, exec i s = .next t ∧ Answered s t [sent encSr1 rx] false .busy 0 ∧ t.rdata = s.rdata ∧
      t.dev = s.elapse.dev :=
  ⟨_, _, hi, hu.refused hrst (hu.via.after encSr1) (by simp) (State.after_status_dev u (.inl rfl)) .busy⟩

/-- Settles O32: the busy check of each sequence reads the BUSY of the device. -/
theorem busyDeviceRefusesEveryCommand : Obligations.BusyDeviceRefusesEveryCommand := by
  intro a n p m i hi s hrst henv hb
  have hplain {q : Prog} (hexec : exec i s = serve q s)
      (hrun : q.run s.start = (respondPlain false .busy).run (s.start.after encSr1)) :=
    exec_refused_busy (Begun.start s) hrst (hexec.trans (serve_of_run hrun))
  have hguarded (h : i ∈ [Instr.programPage a, .eraseSector a, .writePage p, .sectorErase m, .eraseUpToPage p]) :
      ∃ t rx, exec i s = .next t ∧ Answered s t [sent encSr1 rx] false .busy 0 ∧ t.rdata = s.rdata ∧
        t.dev = s.elapse.dev := by
    obtain ⟨u, command, k, hu, hexec, hk⟩ := exec_eq_guardedSeq a p m h s
    rw [guardedSeq_run_busy (hu.rstIn hrst) (hu.env henv) (by rw [hu.dev, hb]), hk] at hexec
    exact exec_refused_busy hu hrst hexec
  simp only [List.mem_cons, List.not_mem_nil, or_false] at hi
  obtain rfl | rfl | rfl | rfl | rfl | rfl | rfl | rfl | rfl | rfl | rfl := hi
  · exact hplain rfl (enter4bSeq_run_busy (s := s.start) hrst henv hb _)
  · exact hplain rfl (enter4bSeq_run_busy (s := s.start) hrst henv hb _)
  · exact hplain rfl (enableWriteSeq_run_busy (s := s.start) hrst henv hb _)
  · exact hplain rfl (readIdSeq_run_busy (s := s.start) hrst henv hb _)
  · exact hplain rfl (readRawSeq_run_busy (s := s.start) hrst henv hb _ _ _)
  iterate 2
    · exact hguarded (by simp)
  · exact hplain rfl (readRawSeq_run_busy (s := s.start) hrst henv hb _ _ _)
  iterate 3
    · exact hguarded (by simp)

/-- Settles O33: the gaps leave the idle device alone, so that the second check reads its WEL. -/
theorem writeDisabledDeviceRefusesProgramAndErase : Obligations.WriteDisabledDeviceRefusesProgramAndErase := by
  intro a p m i hi s hrst henv hb hw
  obtain ⟨u, command, k, hu, hexec, hk⟩ := exec_eq_guardedSeq a p m hi s
  have hgap : u.elapse.dev = s.dev := hu.dev.trans (State.elapse_dev_idle hb)
  have hidle : u.elapse.dev.busy = false := by rw [hgap, hb]
  have hdev : ((u.after encSr1).after encSr1).dev = u.elapse.dev :=
    (State.after_status_dev _ (.inl rfl)).trans (State.after_status_elapse_dev (.inl rfl) hidle)
  rw [guardedSeq_run_disabled (hu.rstIn hrst) (hu.env henv) hidle (by rw [hgap, hw]), hk] at hexec
  obtain ⟨hanswer, hrdata, hsame⟩ :=
    hu.refused hrst ((hu.via.after encSr1).after encSr1) (by simp) hdev .writeDisabled
  exact ⟨_, _, _, hexec, hanswer, hrdata, hsame.trans (State.elapse_dev_idle hb)⟩

end Sys2Proof.Machine
end

section
/-! PROOFS. The address translator (43_address_translator R170 to R175): its addresses as exact products, the request
words that select its operations, and their answers without a transaction. -/

namespace Sys2Proof

/-! ## The words that select an operation (R173 to R175, 30_encoding R103, R104) -/

/-- A word decodes to a well-formed instruction exactly when it is its request word. -/
theorem decode_req_ok_iff_encode {w : BitVec 64} {i : Instr} (hwf : WellFormed i) :
    decode (.req w) = .ok i ↔ encode i = .req w :=
  ⟨fun h => (encodeOfDecodeIsTheCode _ _ h).1, fun h => h ▸ decode_encode hwf⟩

/-- The bits of ARG above a narrower operand are 0 exactly when ARG is that operand, widened. -/
theorem reqArg_high_eq_zero_iff (w : BitVec 64) {m n : Nat} (hmn : m + n = 32) :
    (reqArg w).extractLsb' m n = 0#n ↔ reqArg w = (w.extractLsb' 32 m).setWidth 32 := by
  rw [← reqArg_extractLsb' w (i := 0) (by omega)]
  generalize reqArg w = x
  revert x
  rw [← hmn]
  exact fun x => ⟨eq_setWidth_of_high_eq_zero, fun h => h ▸ extractLsb'_setWidth_high (m + n) n _⟩

theorem pageMask_eq_rowMask : 0xFF000000FFFFFFFF#64 = rowMask 0xFFFF#16 0xFF000000#32 := by decide

theorem sectorMask_eq_rowMask : 0xFFF00000FFFFFFFF#64 = rowMask 0xFFFF#16 0xFFF00000#32 := by decide

/-- A row that masks the bits of ARG above an operand of `m` bits selects the operation with that operand. -/
theorem row_selects_iff {w : BitVec 64} {op : BitVec 5} {m n : Nat} {mask : BitVec 32} {i : Instr} (hmn : m + n = 32)
    (hmask : ∀ x : BitVec 32, x &&& mask = 0#32 ↔ x.extractLsb' m n = 0#n) (hwf : WellFormed i)
    (hcode : encode i = .req (packReq op 0 0 ((w.extractLsb' 32 m).setWidth 32))) :
    w &&& rowMask 0xFFFF mask = packOp op ↔ decode (.req w) = .ok i := by
  rw [decode_req_ok_iff_encode hwf, hcode, Code.req.injEq, eq_comm (b := w), eq_packReq_iff, packOp,
    and_rowMask_eq_packReq_iff]
  simp [BitVec.toNat_inj, hmask, reqArg_high_eq_zero_iff w hmn]

theorem decode_error_of_page_too_wide {w : BitVec 64} (hop : (reqOp w).toNat ∈ [0x11, 0x13])
    (hwide : w.extractLsb' 56 8 ≠ 0#8) : ∃ e, decode (.req w) = .error e := by
  rw [decodeReq_error_iff, decodeOp_error_iff, reqArg_extractLsb' w (i := 24) (by decide)]
  rcases List.mem_pair.mp hop with h | h <;> simp [h, hwide]

theorem decode_error_of_sector_too_wide {w : BitVec 64} (hop : (reqOp w).toNat = 0x12)
    (hwide : w.extractLsb' 52 12 ≠ 0#12) : ∃ e, decode (.req w) = .error e := by
  rw [decodeReq_error_iff, decodeOp_error_iff, reqArg_extractLsb' w (i := 20) (by decide)]
  simp [hop, hwide]

namespace Machine

/-! ## The answers (R173 to R175) -/

/-- A sequence that is its response alone is answered with no transaction and, since no gap falls in it (log entry 7),
with the device as it was. -/
theorem serve_respond_answered {s : State} (hrst : s.rstIn = none) (ok : Bool) (c : Cause) (val : BitVec 32) :
    ∃ t, serve (.respond ok c val) s = .next t ∧ Answered s t [] ok c val ∧ SameData s t ∧ t.dev = s.dev := by
  obtain ⟨hdata, hanswer⟩ := (Trail.start s).respond hrst ok c val
  exact ⟨_, rfl, hanswer, hdata, State.respond_dev (t := s.start) hrst ok c val⟩

theorem sectorNumberFromPage_setWidth_eq_ofNat (p : BitVec 24) :
    (sectorNumberFromPage p).setWidth 32 = BitVec.ofNat 32 (p.toNat / 16) := by
  rw [← sectorNumberFromPage_toNat, BitVec.ofNat_toNat]

/-- Settles O10: the words by the round trip of the encoding, the answers by the sequences, each a response alone. -/
theorem translatorOperationsAnswer : Obligations.TranslatorOperationsAnswer := by
  refine ⟨fun w => ⟨?_, ?_, ?_, decode_error_of_page_too_wide, decode_error_of_sector_too_wide⟩,
    fun s hrst => ⟨fun p => ?_, fun m => ?_, fun p => ?_⟩⟩
  · rw [pageMask_eq_rowMask]
    exact row_selects_iff (op := 0x11) (i := .pageAddr _) (m := 24) (n := 8) rfl
      (fun _ => and_pageMask_eq_zero_iff) rfl rfl
  · rw [sectorMask_eq_rowMask]
    exact row_selects_iff (op := 0x12) (i := .sectorAddr _) (m := 20) (n := 12) rfl
      (fun _ => and_sectorMask_eq_zero_iff) rfl rfl
  · rw [pageMask_eq_rowMask]
    exact row_selects_iff (op := 0x13) (i := .sectorOfPage _) (m := 24) (n := 8) rfl
      (fun _ => and_pageMask_eq_zero_iff) rfl rfl
  · rw [← pageAddress_eq_ofNat]
    exact serve_respond_answered hrst true .none (pageAddress p)
  · rw [← sectorAddress_eq_ofNat]
    exact serve_respond_answered hrst true .none (sectorAddress m)
  · rw [← sectorNumberFromPage_setWidth_eq_ofNat]
    exact serve_respond_answered hrst true .none ((sectorNumberFromPage p).setWidth 32)

/-! ## The addresses (R170, R171) -/

/-- Settles O8: the shifts as exact products, whose range is that of the page or sector number. -/
theorem pageAndSectorAddressesAreExact : Obligations.PageAndSectorAddressesAreExact := by
  refine ⟨fun p => ⟨pageAddress_toNat p, ?_, ?_, rfl⟩, fun m => ⟨sectorAddress_toNat m, ?_, ?_, rfl⟩⟩
  · have := p.isLt
    rw [pageAddress_toNat]
    omega
  · rw [pageAddress_toNat, Nat.mul_mod_left]
  · have := m.isLt
    rw [sectorAddress_toNat]
    omega
  · rw [sectorAddress_toNat, Nat.mul_mod_left]

end Machine

end Sys2Proof
end

section
/-! PROOFS. ERASE_UP_TO_PAGE with no pulse of RST pending (44_sequencer R184 to R186): the loop is followed from round
to round (`AtRound`), a round whose checks pass leads to the next one or to the success, and one that fails ends it. -/

namespace Sys2Proof.Machine

/-! ## The transactions of rounds -/

theorem eraseRounds_append (j : Nat) (rs rs' : List EraseRound) :
    eraseRounds j (rs ++ rs') = eraseRounds j rs ++ eraseRounds (j + rs.length) rs' := by
  induction rs generalizing j with
  | nil => rfl
  | cons r rs ih => simp [eraseRounds, ih, Nat.add_right_comm, Nat.add_assoc]

theorem eraseRounds_length (j : Nat) (rs : List EraseRound) : (eraseRounds j rs).length = 3 * rs.length := by
  induction rs generalizing j with
  | nil => rfl
  | cons r rs ih => simp only [eraseRounds, List.length_cons, ih]; omega

/-! ## The state within the loop (R184, 10_state R25) -/

/-- `v` is reached from `s` by the transactions `xs` and lies in the round of sector `j` of ERASE_UP_TO_PAGE `p`. -/
structure InRound (p : BitVec 24) (s v : State) (j : Nat) (xs : List BusXact) : Prop where
  via : Via s v xs
  rdata : v.rdata = s.rdata
  loopS : v.loopS.toNat = j
  loopLast : v.loopLast.toNat = p.toNat / 16

/-- LOOP_S and LOOP_LAST as the loop of ERASE_UP_TO_PAGE `p` writes them for sector `j`. -/
def State.beginRound (p : BitVec 24) (j : Nat) (u : State) : State :=
  u.setLoop (sectorNumberFromPage p - BitVec.ofNat 20 (p.toNat / 16 - j)) (sectorNumberFromPage p)

/-- What a round that begins in `v` and erases sector `j` receives. -/
def State.eraseRound (v : State) (j : Nat) : EraseRound where
  busy := v.elapse.answer encSr1
  wel := (v.after encSr1).elapse.answer encSr1
  cmd := ((v.after encSr1).after encSr1).elapse.answer (eraseFrame j)

/-- The state after the three transactions of a round that begins in `v` and erases sector `j`. -/
def State.afterErase (v : State) (j : Nat) : State := ((v.after encSr1).after encSr1).after (eraseFrame j)

/-- Both checks of the round that begins in `v` pass: BUSY is read 0, and then WEL is read 1 (R156). -/
structure State.ChecksPass (v : State) : Prop where
  busy : busyBit v.readsSr1 = false
  wel : welBit (v.after encSr1).readsSr1 = true

theorem State.ChecksPass.passes {v : State} (h : v.ChecksPass) (j : Nat) : (v.eraseRound j).Passes :=
  ⟨State.answer_length _ _, h.busy, State.answer_length _ _, h.wel, State.answer_length _ _⟩

/-- The checks of a round pass, or one of them reads a failing bit. -/
theorem State.checks_cases (v : State) :
    v.ChecksPass ∨ busyBit v.readsSr1 = true ∨
      (busyBit v.readsSr1 = false ∧ welBit (v.after encSr1).readsSr1 = false) := by
  cases hb : busyBit v.readsSr1
  · cases hw : welBit (v.after encSr1).readsSr1
    · exact .inr (.inr ⟨rfl, rfl⟩)
    · exact .inl ⟨hb, hw⟩
  · exact .inr (.inl rfl)

theorem eraseNext_false (last : BitVec 20) (n : Nat) (c : Cause) : eraseNext last n false c = respondPlain false c := by
  cases n <;> rfl

/-! An unconstrained environment in a round (10_state R38, log entry 15). -/

section
variable {v : State} (henv : v.env = .unconstrained)
include henv

theorem State.after_misoIn_unconstrained (tx : List Byte) : (v.after tx).misoIn = v.misoIn.drop tx.length :=
  (State.after_misoIn tx v).trans (State.xfer_misoIn_unconstrained henv tx)

/-- A status read receives the second of the bytes to come. -/
theorem State.readsSr1_unconstrained (hlen : 1 < v.misoIn.length) : v.readsSr1 = v.misoIn.getD 1 0 := by
  rw [State.readsSr1, State.answer_unconstrained (by simpa using henv)]
  exact openAnswer_getD _ _ _ _ (by decide) hlen 0

/-- The status read after the busy check receives the fourth. -/
theorem State.readsSr1_after_check_unconstrained (hlen : 3 < v.misoIn.length) :
    (v.after encSr1).readsSr1 = v.misoIn.getD 3 0 := by
  have hmiso : (v.after encSr1).misoIn = v.misoIn.drop 2 := State.after_misoIn_unconstrained henv encSr1
  rw [State.readsSr1_unconstrained (by simpa using henv) (by rw [hmiso, List.length_drop]; omega), hmiso]
  simp [List.getD_eq_getElem?_getD]

theorem State.afterErase_misoIn (j : Nat) : (v.afterErase j).misoIn = v.misoIn.drop 9 := by
  rw [State.afterErase, State.after_misoIn_unconstrained (by simpa using henv),
    State.after_misoIn_unconstrained (by simpa using henv), State.after_misoIn_unconstrained henv, List.drop_drop,
    List.drop_drop]
  rfl

end

section
variable {p : BitVec 24} {s v : State} {j : Nat} {xs : List BusXact}

theorem InRound.after (h : InRound p s v j xs) (tx : List Byte) :
    InRound p s (v.after tx) j (xs ++ [sent tx (v.elapse.answer tx)]) :=
  ⟨h.via.after tx, h.rdata, h.loopS, h.loopLast⟩

/-- A response leaves the registers of the round. -/
theorem InRound.respond (h : InRound p s v j xs) (hrst : s.rstIn = none) (ok : Bool) (c : Cause) :
    Answered s (v.respond ok c 0) xs ok c 0 ∧ (v.respond ok c 0).rdata = s.rdata ∧
      (v.respond ok c 0).loopS.toNat = j ∧ (v.respond ok c 0).loopLast.toNat = p.toNat / 16 := by
  have hv := h.via.rstIn hrst
  have hsame := (SameData.refl v).respond hv ok c 0
  exact ⟨h.via.respond hv ok c 0, hsame.rdata.trans h.rdata, by rw [hsame.loopS, h.loopS],
    by rw [hsame.loopLast, h.loopLast]⟩

/-- The three transactions of a round extend the rounds before it by one. -/
theorem InRound.afterErase {rounds : List EraseRound} (h : InRound p s v rounds.length (eraseRounds 0 rounds)) :
    InRound p s (v.afterErase rounds.length) rounds.length
      (eraseRounds 0 (rounds ++ [v.eraseRound rounds.length])) := by
  have hround := ((h.after encSr1).after encSr1).after (eraseFrame rounds.length)
  rw [List.append_assoc, List.append_assoc] at hround
  rw [eraseRounds_append, Nat.zero_add]
  exact hround

/-- The loop registers at the beginning of a round. -/
theorem InRound.beginRound {i : Nat} (h : InRound p s v i xs) (hj : j ≤ p.toNat / 16) :
    InRound p s (v.beginRound p j) j xs := by
  have hlast := sectorNumberFromPage_toNat p
  refine ⟨h.via.setLoop _ _, h.rdata, ?_, hlast⟩
  rw [State.beginRound, State.setLoop, loopS_toNat _ _ (by omega)]
  omega

/-- The loop with the sectors from `j` on to come. -/
theorem eraseLoop_run_from (u : State) (hj : j ≤ p.toNat / 16) :
    (eraseLoop (sectorNumberFromPage p) (p.toNat / 16 - j)).run u =
      (guardedSeq (eraseFrame j) (eraseNext (sectorNumberFromPage p) (p.toNat / 16 - j))).run (u.beginRound p j) := by
  have hlast := sectorNumberFromPage_toNat p
  rw [eraseLoop_run, encErase_sectorAddress, loopS_toNat _ _ (by omega), hlast, Nat.sub_sub_self hj]
  rfl

end

/-! ## From round to round (R184) -/

/-- The next round of ERASE_UP_TO_PAGE `p` begins in `v`, the given rounds having passed their checks. -/
structure AtRound (p : BitVec 24) (s v : State) (rounds : List EraseRound) : Prop
    extends InRound p s v rounds.length (eraseRounds 0 rounds) where
  run : exec (.eraseUpToPage p) s = .next ((guardedSeq (eraseFrame rounds.length)
    (eraseNext (sectorNumberFromPage p) (p.toNat / 16 - rounds.length))).run v)
  count : rounds.length ≤ p.toNat / 16
  passes : ∀ r ∈ rounds, r.Passes
  /-- A round takes nine bytes of an unconstrained environment (log entry 15). -/
  misoIn : s.env = .unconstrained → v.misoIn = s.misoIn.drop (9 * rounds.length)

/-- The loop begins with the round of sector 0. -/
theorem AtRound.first (p : BitVec 24) (s : State) : AtRound p s (s.start.beginRound p 0) [] := by
  have hlast := sectorNumberFromPage_toNat p
  refine ⟨⟨(Via.start s).setLoop _ _, rfl, ?_, hlast⟩, ?_, Nat.zero_le _, by simp, fun _ => rfl⟩
  · rw [State.beginRound, State.setLoop, loopS_toNat _ _ (by omega)]
    exact Nat.sub_eq_zero_of_le (by omega)
  · rw [List.length_nil, ← eraseLoop_run_from _ (Nat.zero_le _), Nat.sub_zero, ← hlast]
    rfl

theorem AtRound.passes_append {p : BitVec 24} {s v : State} {rounds : List EraseRound} (h : AtRound p s v rounds)
    (hpass : v.ChecksPass) : ∀ r ∈ rounds ++ [v.eraseRound rounds.length], r.Passes :=
  List.forall_mem_append.mpr ⟨h.passes, List.forall_mem_singleton.mpr (hpass.passes _)⟩

section
variable {p : BitVec 24} {s v : State} {rounds : List EraseRound} (h : AtRound p s v rounds) (hrst : s.rstIn = none)
include h hrst

/-- A round whose busy check fails is the end of the loop. -/
theorem AtRound.exec_busy (hb : busyBit v.readsSr1 = true) :
    exec (.eraseUpToPage p) s = .next ((v.after encSr1).respond false .busy 0) := by
  rw [h.run, guardedSeq_run_quiet (h.via.rstIn hrst), if_pos hb, eraseNext_false]
  rfl

/-- So is one whose write-enable check fails. -/
theorem AtRound.exec_disabled (hb : busyBit v.readsSr1 = false) (hw : welBit (v.after encSr1).readsSr1 = false) :
    exec (.eraseUpToPage p) s = .next (((v.after encSr1).after encSr1).respond false .writeDisabled 0) := by
  rw [h.run, guardedSeq_run_quiet (h.via.rstIn hrst), if_neg (by simp [hb]), if_neg (by simp [hw]), eraseNext_false]
  rfl

/-- A round whose checks pass goes on after the erase command of its sector. -/
theorem AtRound.exec_passes (hpass : v.ChecksPass) :
    exec (.eraseUpToPage p) s =
      .next ((eraseNext (sectorNumberFromPage p) (p.toNat / 16 - rounds.length) true .none).run
        (v.afterErase rounds.length)) := by
  rw [h.run, guardedSeq_run_quiet (h.via.rstIn hrst), if_neg (by simp [hpass.busy]), if_pos hpass.wel]
  rfl

/-- The last sector's round, if its checks pass, is the success of the operation. -/
theorem AtRound.exec_last (hpass : v.ChecksPass) (hlast : rounds.length = p.toNat / 16) :
    exec (.eraseUpToPage p) s = .next ((v.afterErase rounds.length).respond true .none 0) := by
  rw [h.exec_passes hrst hpass, hlast, Nat.sub_self]
  rfl

/-- Another sector's round, if its checks pass, leads to the next one. -/
theorem AtRound.next (hpass : v.ChecksPass) (hlt : rounds.length < p.toNat / 16) :
    AtRound p s ((v.afterErase rounds.length).beginRound p (rounds.length + 1))
      (rounds ++ [v.eraseRound rounds.length]) := by
  have hlen : (rounds ++ [v.eraseRound rounds.length]).length = rounds.length + 1 := by simp
  have hmore : p.toNat / 16 - rounds.length = p.toNat / 16 - (rounds.length + 1) + 1 := by omega
  refine ⟨?_, ?_, ?_, ?_, fun henv => ?_⟩
  · rw [hlen]
    exact h.afterErase.beginRound hlt
  · rw [hlen, ← eraseLoop_run_from _ hlt, h.exec_passes hrst hpass, hmore]
    rfl
  · omega
  · exact h.passes_append hpass
  · have hmiso := State.afterErase_misoIn (h.via.block.env.trans henv) rounds.length
    rw [hlen, Nat.mul_succ, ← List.drop_drop, ← h.misoIn henv]
    exact hmiso

/-- The loop comes to a round that fails or to the last one. -/
theorem AtRound.exists_final :
    ∃ w rs, AtRound p s w rs ∧ (w.ChecksPass → rs.length = p.toNat / 16) := by
  generalize hm : p.toNat / 16 - rounds.length = m
  induction m generalizing v rounds with
  | zero => exact ⟨v, rounds, h, fun _ => by have := h.count; omega⟩
  | succ m ih =>
    by_cases hpass : v.ChecksPass
    · refine ih (h.next hrst hpass (by omega)) ?_
      simp only [List.length_append, List.length_singleton]
      omega
    · exact ⟨v, rounds, h, fun hv => absurd hv hpass⟩

end

/-- Settles O29: the loop ends in its final round, by a failing check or as the last sector. -/
theorem eraseUpToPageErasesInOrder : Obligations.EraseUpToPageErasesInOrder := by
  intro p s hrst
  obtain ⟨v, rounds, h, hfinal⟩ := (AtRound.first p s).exists_final hrst
  have hcount := h.count
  rcases v.checks_cases with hpass | hb | ⟨hb, hw⟩
  · have hlen : (rounds ++ [v.eraseRound rounds.length]).length = p.toNat / 16 + 1 := by simp [hfinal hpass]
    obtain ⟨hanswer, hrdata, hloopS, hloopLast⟩ := h.afterErase.respond hrst true .none
    refine ⟨_, rounds ++ [v.eraseRound rounds.length], [], true, .none, h.exec_last hrst hpass (hfinal hpass), ?_,
      hrdata, hloopLast, ?_, ?_, .inl ⟨hlen, hloopS.trans (hfinal hpass), rfl, rfl, rfl⟩⟩
    · rwa [List.append_nil]
    · exact h.passes_append hpass
    · rw [List.append_nil, eraseRounds_length, hlen]
  · obtain ⟨hanswer, hrdata, hloopS, hloopLast⟩ := (h.after encSr1).respond hrst false .busy
    refine ⟨_, rounds, _, false, .busy, h.exec_busy hrst hb, hanswer, hrdata, hloopLast, h.passes, ?_,
      .inr ⟨hcount, hloopS, rfl, _, State.answer_length _ _, .inl ⟨hb, rfl, rfl⟩⟩⟩
    rw [List.length_append, eraseRounds_length, List.length_singleton]
    omega
  · obtain ⟨hanswer, hrdata, hloopS, hloopLast⟩ := ((h.after encSr1).after encSr1).respond hrst false .writeDisabled
    rw [List.append_assoc] at hanswer
    refine ⟨_, rounds, _, false, .writeDisabled, h.exec_disabled hrst hb hw, hanswer, hrdata, hloopLast, h.passes, ?_,
      .inr ⟨hcount, hloopS, rfl, _, State.answer_length _ _, .inr ⟨hb, _, State.answer_length _ _, hw, rfl, rfl⟩⟩⟩
    rw [List.length_append, eraseRounds_length]
    simp only [List.cons_append, List.nil_append, List.length_cons, List.length_nil]
    omega

/-! ## The answers of an unconstrained environment (R185) -/

/-- The two status bytes of the round that begins in `v`, as an unconstrained environment is going to answer them. -/
theorem AtRound.reads {p : BitVec 24} {s v : State} {rounds : List EraseRound} (h : AtRound p s v rounds)
    (henv : s.env = .unconstrained) (hlen : 9 * (p.toNat / 16 + 1) ≤ s.misoIn.length) :
    v.readsSr1 = s.misoIn.getD (9 * rounds.length + 1) 0 ∧
      (v.after encSr1).readsSr1 = s.misoIn.getD (9 * rounds.length + 3) 0 := by
  have hv : v.env = .unconstrained := h.via.block.env.trans henv
  have hcount := h.count
  have hleft : 9 ≤ v.misoIn.length := by rw [h.misoIn henv, List.length_drop]; omega
  rw [State.readsSr1_unconstrained hv (by omega), State.readsSr1_after_check_unconstrained hv (by omega),
    h.misoIn henv]
  simp [List.getD_eq_getElem?_getD]

/-- The loop comes to round `k` when the answers let all rounds before it pass. -/
theorem AtRound.exists_of_answers {p : BitVec 24} {s : State} (hrst : s.rstIn = none) (henv : s.env = .unconstrained)
    (hlen : 9 * (p.toNat / 16 + 1) ≤ s.misoIn.length) {k : Nat} (hk : k ≤ p.toNat / 16)
    (hpass : ∀ j, j < k → busyBit (s.misoIn.getD (9 * j + 1) 0) = false ∧ welBit (s.misoIn.getD (9 * j + 3) 0) = true) :
    ∃ v rounds, AtRound p s v rounds ∧ rounds.length = k := by
  induction k with
  | zero => exact ⟨_, _, AtRound.first p s, rfl⟩
  | succ k ih =>
    obtain ⟨v, rounds, h, rfl⟩ := ih (by omega) fun j hj => hpass j (by omega)
    obtain ⟨hbusy, hwel⟩ := hpass rounds.length (by omega)
    obtain ⟨hsr1, hsr1'⟩ := h.reads henv hlen
    exact ⟨_, _, h.next hrst ⟨by rw [hsr1, hbusy], by rw [hsr1', hwel]⟩ hk, by simp⟩

/-- Settles O57: the answers let the loop come to round `k`, and then decide how that round ends. -/
theorem eraseUpToPageFollowsTheAnswers : Obligations.EraseUpToPageFollowsTheAnswers := by
  intro p s hrst henv hlen busy wel
  refine ⟨fun hpass => ?_, fun k hk hpass => ⟨fun hb => ?_, fun hb hw => ?_⟩⟩
  · obtain ⟨v, rounds, h, hlast⟩ := AtRound.exists_of_answers hrst henv hlen (Nat.le_refl _)
      fun j hj => hpass j (by omega)
    obtain ⟨hsr1, hsr1'⟩ := h.reads henv hlen
    obtain ⟨hb, hw⟩ := hpass rounds.length h.count
    exact ⟨_, _, h.exec_last hrst ⟨hsr1 ▸ hb, hsr1' ▸ hw⟩ hlast, by simp [hlast],
      (h.afterErase.respond hrst true .none).1⟩
  · obtain ⟨v, rounds, h, rfl⟩ := AtRound.exists_of_answers hrst henv hlen hk hpass
    obtain ⟨hsr1, -⟩ := h.reads henv hlen
    exact ⟨_, rounds, _, h.exec_busy hrst (hsr1 ▸ hb), rfl, ((h.after encSr1).respond hrst false .busy).1⟩
  · obtain ⟨v, rounds, h, rfl⟩ := AtRound.exists_of_answers hrst henv hlen hk hpass
    obtain ⟨hsr1, hsr1'⟩ := h.reads henv hlen
    have hanswer := (((h.after encSr1).after encSr1).respond hrst false .writeDisabled).1
    rw [List.append_assoc] at hanswer
    exact ⟨_, rounds, _, _, h.exec_disabled hrst (hsr1 ▸ hb) (hsr1' ▸ hw), rfl, hanswer⟩

/-! ## The reference device (R186, 70 R235) -/

theorem eraseFrame_eq_encErase (j : Nat) : eraseFrame j = encErase (BitVec.ofNat 32 (j * 4096)) := rfl

/-- On an idle, write-enabled reference device the round passes its checks and starts the erase of its sector. -/
theorem State.erase_starts {v : State} {j : Nat} (henv : v.env = .reference) (hb : v.elapse.dev.busy = false)
    (hw : v.elapse.dev.wel = true) :
    v.ChecksPass ∧ v.elapse.dev.Accepted (v.afterErase j).dev
      (v.elapse.dev.erasePending (BitVec.ofNat 32 (j * 4096))) := by
  have hgap : (v.after encSr1).elapse.dev = v.elapse.dev := State.after_status_elapse_dev (.inl rfl) hb
  obtain ⟨n, hdev⟩ := State.after_checks_dev henv hb (eraseFrame j)
  refine ⟨⟨(State.busyBit_readsSr1 henv).trans hb, ?_⟩, ?_⟩
  · rw [State.welBit_readsSr1 (by simpa using henv) (hgap ▸ hb), hgap, hw]
  · rw [State.afterErase, hdev, eraseFrame_eq_encErase, Device.act_encErase]
    exact Device.accepted_accept hb hw n _

/-- On an idle, write-enabled device in a usable mode the first round passes and the erase of sector 0 is accepted. -/
theorem AtRound.first_erases (p : BitVec 24) {s : State} (henv : s.env = .reference) (hb : s.dev.busy = false)
    (hw : s.dev.wel = true) (hu : s.dev.Usable) (hcap : 4096 ≤ s.dev.lastAddr.toNat + 1) :
    ∃ v, AtRound p s v [] ∧ v.ChecksPass ∧ s.dev.Accepted (v.afterErase 0).dev (.erase 0) := by
  have hgap : (s.start.beginRound p 0).elapse.dev = s.dev := State.elapse_dev_idle hb
  obtain ⟨hpass, hacc⟩ := State.erase_starts (v := s.start.beginRound p 0) (j := 0) henv (hgap ▸ hb) (hgap ▸ hw)
  rw [hgap, Device.erasePending_fits hu (by simpa using hcap)] at hacc
  exact ⟨_, AtRound.first p s, hpass, hacc⟩

/-- Settles O30: the round of sector 0 is the first and the last. -/
theorem eraseUpToPageOfSectorZero : Obligations.EraseUpToPageOfSectorZero := by
  intro p s hp hrst henv hb hw hu hcap
  have hlast : 0 = p.toNat / 16 := by omega
  obtain ⟨v, h, hpass, hacc⟩ := AtRound.first_erases p henv hb hw hu hcap
  obtain ⟨hanswer, hrdata, hloopS, hloopLast⟩ := h.afterErase.respond hrst true .none
  refine ⟨_, _, _, _, h.exec_last hrst hpass hlast, hanswer, ?_, BitVec.eq_of_toNat_eq hloopS,
    BitVec.eq_of_toNat_eq (hloopLast.trans hlast.symm), hrdata⟩
  rwa [State.respond_dev (h.afterErase.via.rstIn hrst)]

/-- A gap leaves an accepted operation running, or completes it (20_memory R70). -/
theorem Device.Accepted.elapse {d e : Device} {q : Pending} (h : d.Accepted e q) (n : Nat) :
    d.Accepted (e.elapse n) q ∨ e.elapse n = e.complete n := by
  obtain ⟨len, he⟩ := h
  rcases e.elapse_cases n with ⟨hb, -⟩ | ⟨-, k, -, hd⟩ | ⟨-, -, hd⟩
  · rw [he] at hb
    cases hb
  · exact .inl ⟨k, by rw [hd, he]⟩
  · exact .inr hd

/-- The completed erase of sector 0 leaves 0xFF in it (20_memory R59). -/
theorem Device.read_complete_erased {d e : Device} (hwf : d.array.wf = true) (he : d.Accepted e (.erase 0))
    (hcap : 4096 ≤ d.lastAddr.toNat + 1) (n : Nat) {x : Nat} (hx : x < 4096) :
    (e.complete n).array.read x = 0xFF#8 := by
  obtain ⟨len, rfl⟩ := he
  rw [Device.complete_array_erase rfl, Flash.read_eraseSector hwf, if_pos]
  exact ⟨by omega, by omega, Nat.lt_of_lt_of_le hx hcap⟩

section
variable {p : BitVec 24} {s v : State} {rounds : List EraseRound} (h : AtRound p s v rounds) (hrst : s.rstIn = none)
  (henv : s.env = .reference)
include h hrst henv

/-- A round that finds the device busy after the gap ends the loop and leaves the device as the gap left it. -/
theorem AtRound.refused_while_busy (hb : v.elapse.dev.busy = true) :
    ∃ t rx, exec (.eraseUpToPage p) s = .next t ∧
      Answered s t (eraseRounds 0 rounds ++ [sent encSr1 rx]) false .busy 0 ∧ t.dev = v.elapse.dev := by
  have hcheck := h.after encSr1
  refine ⟨_, _, h.exec_busy hrst ?_, (hcheck.respond hrst false .busy).1, ?_⟩
  · rw [State.busyBit_readsSr1 (h.via.block.env.trans henv), hb]
  · rw [State.respond_dev (hcheck.via.rstIn hrst), State.after_status_dev v (.inl rfl)]

/-- So does a round that finds it idle without WEL. -/
theorem AtRound.refused_without_wel (hb : v.elapse.dev.busy = false) (hw : v.elapse.dev.wel = false) :
    ∃ t rx1 rx2, exec (.eraseUpToPage p) s = .next t ∧
      Answered s t (eraseRounds 0 rounds ++ [sent encSr1 rx1] ++ [sent encSr1 rx2]) false .writeDisabled 0 ∧
      t.dev = v.elapse.dev := by
  have hv : v.env = .reference := h.via.block.env.trans henv
  have hgap : (v.after encSr1).elapse.dev = v.elapse.dev := State.after_status_elapse_dev (.inl rfl) hb
  have hcheck := (h.after encSr1).after encSr1
  refine ⟨_, _, _, h.exec_disabled hrst ?_ ?_, (hcheck.respond hrst false .writeDisabled).1, ?_⟩
  · rw [State.busyBit_readsSr1 hv, hb]
  · rw [State.welBit_readsSr1 (by simpa using hv) (hgap ▸ hb), hgap, hw]
  · rw [State.respond_dev (hcheck.via.rstIn hrst), State.after_status_dev _ (.inl rfl), hgap]

end

/-- With a second sector to come its round follows, and the gap before it may have completed the first erase. -/
theorem AtRound.second_after_erase {p : BitVec 24} {s : State} (hp : 16 ≤ p.toNat) (hrst : s.rstIn = none)
    (henv : s.env = .reference) (hb : s.dev.busy = false) (hw : s.dev.wel = true) (hu : s.dev.Usable)
    (hcap : 4096 ≤ s.dev.lastAddr.toNat + 1) :
    ∃ v r, AtRound p s v [r] ∧
      (s.dev.Accepted v.elapse.dev (.erase 0) ∨
        ∃ e n, s.dev.Accepted e (.erase 0) ∧ v.elapse.dev = e.complete n) := by
  obtain ⟨u, hfirst, hpass, hacc⟩ := AtRound.first_erases p henv hb hw hu hcap
  have h := hfirst.next hrst hpass (Nat.div_pos hp (by decide))
  refine ⟨_, _, h, ?_⟩
  rw [State.elapse_dev_reference (h.via.block.env.trans henv)]
  exact (hacc.elapse _).imp_right fun hdone => ⟨_, _, hacc, hdone⟩

/-- Settles O31: the second round reads BUSY = 1 while the erase of sector 0 runs, and WEL = 0 once it has completed. -/
theorem eraseUpToPageStopsAfterOneErase : Obligations.EraseUpToPageStopsAfterOneErase := by
  intro p s hp hrst henv hb hw hu hcap hwf
  obtain ⟨v, r, h, ⟨len, hdev⟩ | ⟨e, n, hacc, hdev⟩⟩ := AtRound.second_after_erase hp hrst henv hb hw hu hcap
  · obtain ⟨t, rx, hexec, hanswer, hend⟩ := h.refused_while_busy hrst henv (by rw [hdev])
    refine ⟨t, _, hexec, hanswer.trace, rfl, ?_, .inl ⟨hanswer.resp, ?_⟩⟩ <;> rw [hend, hdev]
    · exact fun _ _ => rfl
    · exact ⟨rfl, rfl, rfl⟩
  · obtain ⟨t, rx1, rx2, hexec, hanswer, hend⟩ := h.refused_without_wel hrst henv
      (by rw [hdev, Device.complete_busy]) (by rw [hdev]; rfl)
    refine ⟨t, _, hexec, hanswer.trace, rfl, ?_, .inr ⟨hanswer.resp, ?_⟩⟩ <;> rw [hend, hdev]
    · exact fun x hx => Device.read_complete_erase_zero hwf hacc n hx
    · exact ⟨rfl, rfl, fun x hx => Device.read_complete_erased hwf hacc hcap n hx⟩

end Sys2Proof.Machine
end

section
/-! PROOFS. Failures (60_exceptions). In a state that meets the invariant every step answers a next state (R200); every
host operation ends in a response, and a failure is one of the causes its sequence can end with (R201, R207); and what
an absent device, all of whose MISO bytes are equal, makes of each operation (R204). -/

namespace Sys2Proof.Machine

/-! ## No step stops (R200) -/

/-- A request that decodes is executed to an end. -/
theorem exec_next_of_decode {w : BitVec 64} {i : Instr} (hi : decode (.req w) = .ok i) (s : State) :
    ∃ t, exec i s = .next t := by
  obtain ⟨p, hp⟩ := opProg_of_decode hi s.wdata
  exact ⟨_, exec_of_opProg hp⟩

theorem serveRequest_next (w : BitVec 64) (data : Option Page) (s waiting : State) :
    ∃ t, serveRequest w data s waiting = .next t := by
  simp only [serveRequest]
  split
  · exact ⟨_, rfl⟩
  · next i hi =>
    split
    · split
      · exact ⟨_, rfl⟩
      · exact exec_next_of_decode hi _
    · exact exec_next_of_decode hi _

theorem idleStep_next (s : State) : ∃ t, idleStep s = .next t := by
  simp only [idleStep]
  split
  · exact ⟨_, rfl⟩
  · exact ⟨_, rfl⟩
  · exact serveRequest_next _ _ _ _

/-- Settles O51: the one fault of a step is that of a RUN state whose sequencer step names no transaction, and the
invariant excludes it. -/
theorem stepNeverStops : Obligations.StepNeverStops := by
  intro s h
  cases hheld : s.rstHeld with
  | succ n => exact ⟨{ s.elapse.blockReset with rstHeld := n }, by simp [step, stepOf, hheld, heldStep]⟩
  | zero =>
    cases hseq : s.seqState with
    | idle =>
      simp only [step, stepOf, hheld, hseq]
      split
      · exact ⟨_, rfl⟩
      · exact idleStep_next s
    | run =>
      obtain ⟨⟨tx, k⟩, hpos⟩ := Option.isSome_iff_exists.mp (h.named hseq)
      obtain ⟨i, p, -, hp, hq⟩ := State.position_eq_some hpos
      exact ⟨_, step_at_transaction hseq hheld hpos (Prog.position_sends (opProg_sends hp) hq).1⟩

/-! ## The causes an operation can raise (R201) -/

/-- The answers of an operation that can raise the given causes: a success with the cause NONE, or a failure with one of
them and VAL = 0. -/
def AnswerAmong (causes : List Cause) (ok : Bool) (c : Cause) (val : BitVec 32) : Prop :=
  (ok = true ∧ c = .none) ∨ (ok = false ∧ c ∈ causes ∧ val = 0)

theorem answerAmong_success (causes : List Cause) (val : BitVec 32) : AnswerAmong causes true .none val :=
  .inl ⟨rfl, rfl⟩

theorem answerAmong_failure {causes : List Cause} {c : Cause} (h : c ∈ causes) : AnswerAmong causes false c 0 :=
  .inr ⟨rfl, h, rfl⟩

/-- A plain success, and a plain failure with one of the causes. -/
theorem respondPlain_answersAmong (causes : List Cause) :
    (respondPlain true .none).Answers (AnswerAmong causes) ∧
      ∀ c ∈ causes, (respondPlain false c).Answers (AnswerAmong causes) :=
  ⟨answerAmong_success causes 0, fun _ hc => answerAmong_failure hc⟩

/-- The shape of the two mode-setting sequences: the busy check, the command, and the re-read of the register in which
`bit` verifies it (R151, R152). -/
def rereadSeq (command frame : List Byte) (bit : Byte → Bool) (k : Bool → Cause → Prog) : Prog :=
  busyQ fun busy =>
    if busy then k false .busy
    else .xfer command fun _ => srQuery frame fun b => if bit b then k true .none else k false .verifyFailed

/-! What a sequence goes on with: its success, or a failure with one of its own causes (42_command_issuer R150). -/

section
variable {R : Bool → Cause → BitVec 32 → Prop} {k : Bool → Cause → Prog} (hok : (k true .none).Answers R)
include hok

theorem rereadSeq_answers_of_causes (command frame : List Byte) (bit : Byte → Bool)
    (hfail : ∀ c ∈ [Cause.busy, .verifyFailed], (k false c).Answers R) :
    (rereadSeq command frame bit k).Answers R := by
  intro _
  dsimp only
  split
  · exact hfail _ (by simp)
  · intro _ _
    dsimp only
    split
    · exact hok
    · exact hfail _ (by simp)

theorem enter4bSeq_answers_of_causes (hfail : ∀ c ∈ [Cause.busy, .verifyFailed], (k false c).Answers R) :
    (enter4bSeq k).Answers R := rereadSeq_answers_of_causes hok encEnter4b encSr3 adsBit hfail

theorem enableWriteSeq_answers_of_causes (hfail : ∀ c ∈ [Cause.busy, .verifyFailed], (k false c).Answers R) :
    (enableWriteSeq k).Answers R := rereadSeq_answers_of_causes hok encWren encSr1 welBit hfail

theorem readRawSeq_answers_of_causes (a : BitVec 32) (n : Nat) (hfail : ∀ c ∈ [Cause.busy], (k false c).Answers R) :
    (readRawSeq a n k).Answers R := by
  intro _
  dsimp only
  split
  · exact hfail _ (by simp)
  · exact fun _ => hok

theorem guardedSeq_answers_of_causes (command : List Byte)
    (hfail : ∀ c ∈ [Cause.busy, .writeDisabled], (k false c).Answers R) : (guardedSeq command k).Answers R := by
  intro _
  dsimp only
  split
  · exact hfail _ (by simp)
  · intro _
    dsimp only
    split
    · exact fun _ => hok
    · exact hfail _ (by simp)

end

theorem readIdSeq_answers_of_causes {R : Bool → Cause → BitVec 32 → Prop} {k : Bool → Cause → Byte → Prog}
    (hok : ∀ id, (k true .none id).Answers R) (hbusy : (k false .busy 0).Answers R) : (readIdSeq k).Answers R := by
  intro _
  dsimp only
  split
  · exact hbusy
  · exact fun _ => hok _

/-- The loop ends with its success or with the failure of a round (44_sequencer R184). -/
theorem eraseLoop_answersAmong (last : BitVec 20) (n : Nat) :
    (eraseLoop last n).Answers (AnswerAmong [.busy, .writeDisabled]) := by
  obtain ⟨hok, hfail⟩ := respondPlain_answersAmong [.busy, .writeDisabled]
  induction n with
  | zero =>
    rw [eraseLoop, Prog.Answers]
    exact guardedSeq_answers_of_causes hok _ hfail
  | succ n ih =>
    rw [eraseLoop, Prog.Answers]
    exact guardedSeq_answers_of_causes ih _ hfail

/-- With no pulse of RST pending a sequence gives one of its answers. -/
theorem Prog.run_answers_quiet {R : Bool → Cause → BitVec 32 → Prop} {p : Prog} (hp : p.Answers R) {s : State}
    (hrst : s.rstIn = none) : ∃ ok c val, R ok c val ∧ (p.run s).resp = respWord ok c val := by
  induction p generalizing s with
  | xfer tx k ih =>
    rw [Prog.run_xfer_quiet hrst]
    exact ih _ (hp _) (by simp [hrst])
  | emit bytes p ih => exact ih hp (by simp [hrst])
  | setLoop i last p ih => exact ih hp (by simp [hrst])
  | respond ok c val => exact ⟨ok, c, val, hp, State.respond_resp hrst ok c val⟩

/-- A host operation answers, and leaves the block in IDLE with a response that is one of its sequence's. -/
theorem exec_answersAmong {i : Instr} {s : State} {p : Prog} {causes : List Cause} (hrst : s.rstIn = none)
    (hp : opProg i s.wdata = some p) (h : p.Answers (AnswerAmong causes)) :
    ∃ t, exec i s = .next t ∧ t.respValid = true ∧ t.seqState = .idle ∧
      ((∃ val, t.resp = respWord true .none val) ∨ ∃ c, t.resp = respWord false c 0 ∧ c ∈ causes) := by
  refine ⟨_, exec_of_opProg hp, Prog.run_respValid_quiet p hrst, Prog.run_seqState p _, ?_⟩
  obtain ⟨ok, c, val, ⟨rfl, rfl⟩ | ⟨rfl, hc, rfl⟩, hresp⟩ := Prog.run_answers_quiet h (s := s.start) hrst
  · exact .inl ⟨val, hresp⟩
  · exact .inr ⟨c, hresp, hc⟩

/-- Settles O35: each operation is served by its sequence, which ends in a success or in a failure of its own list; a
status read, a translation and WORKS end in a success alone. -/
theorem everyOperationAnswersWithItsCauses : Obligations.EveryOperationAnswersWithItsCauses := by
  intro i s hwire hrst
  cases i with
  | encSr1 | encSr2 | encSr3 | encEnter4b | encWren | encId | encRead | encProg | encErase =>
    simp [Instr.isWire] at hwire
  | begin | enter4b =>
    obtain ⟨hok, hfail⟩ := respondPlain_answersAmong [.busy, .verifyFailed]
    exact exec_answersAmong hrst rfl (enter4bSeq_answers_of_causes hok hfail)
  | enableWrite =>
    obtain ⟨hok, hfail⟩ := respondPlain_answersAmong [.busy, .verifyFailed]
    exact exec_answersAmong hrst rfl (enableWriteSeq_answers_of_causes hok hfail)
  | readId =>
    exact exec_answersAmong hrst rfl
      (readIdSeq_answers_of_causes (fun _ => answerAmong_success _ _) (answerAmong_failure (List.mem_singleton_self _)))
  | readRaw | readPage =>
    obtain ⟨hok, hfail⟩ := respondPlain_answersAmong [.busy]
    exact exec_answersAmong hrst rfl (readRawSeq_answers_of_causes hok _ _ hfail)
  | programPage | eraseSector | writePage | sectorErase =>
    obtain ⟨hok, hfail⟩ := respondPlain_answersAmong [.busy, .writeDisabled]
    exact exec_answersAmong hrst rfl (guardedSeq_answers_of_causes hok _ hfail)
  | eraseUpToPage => exact exec_answersAmong hrst rfl (eraseLoop_answersAmong _ _)
  | works =>
    exact exec_answersAmong hrst rfl
      (readIdSeq_answers_of_causes (fun _ => answerAmong_success _ _) (answerAmong_success _ _))
  | readSr1 | readSr2 | readSr3 | busy | writeEnabled | addrMode4b =>
    exact exec_answersAmong hrst rfl fun _ => answerAmong_success _ _
  | pageAddr | sectorAddr | sectorOfPage => exact exec_answersAmong hrst rfl (answerAmong_success _ _)

/-! ## An absent device (R204) -/

/-- No device answers, and MISO is going to read `b` for the next `n` bytes at least (log entry 15). -/
structure State.Absent (b : Byte) (n : Nat) (s : State) : Prop where
  env : s.env = .unconstrained
  miso : ∃ len, n ≤ len ∧ s.misoIn = List.replicate len b

section
variable {b : Byte} {n : Nat} {s : State} (h : s.Absent b n)
include h

theorem State.Absent.start : s.start.Absent b n := ⟨h.env, h.miso⟩

theorem State.Absent.setLoop (i last : BitVec 20) : (s.setLoop i last).Absent b n := ⟨h.env, h.miso⟩

/-- Every byte received is `b`. -/
theorem State.Absent.answer {tx : List Byte} (htx : tx.length ≤ n) :
    s.elapse.answer tx = List.replicate tx.length b := by
  obtain ⟨henv, len, hn, hmiso⟩ := h
  rw [State.answer_unconstrained (by simpa using henv), openAnswer, State.elapse_misoIn, hmiso, List.eq_replicate_iff]
  refine ⟨by simp, fun x hx => ?_⟩
  obtain ⟨i, hi, rfl⟩ := List.mem_map.mp hx
  exact List.getD_replicate _ (by have := List.mem_range.mp hi; omega)

theorem State.Absent.after {m : Nat} (tx : List Byte) (hm : tx.length + m ≤ n) : (s.after tx).Absent b m := by
  obtain ⟨henv, len, hn, hmiso⟩ := h
  refine ⟨by simpa using henv, len - tx.length, by omega, ?_⟩
  rw [State.after_misoIn_unconstrained henv, hmiso, List.drop_replicate]

theorem State.Absent.readsSr1 (hn : 2 ≤ n) : s.readsSr1 = b := by
  rw [State.readsSr1, h.answer (tx := encSr1) hn]
  rfl

theorem State.Absent.readsSr3 (hn : 2 ≤ n) : s.readsSr3 = b := by
  rw [State.readsSr3, h.answer (tx := encSr3) hn]
  rfl

end

/-- The instruction runs to the response word `r`. -/
def RespondsWith (i : Instr) (s : State) (r : BitVec 64) : Prop :=
  ∃ t, exec i s = .next t ∧ t.resp = r ∧ t.respValid = true

theorem RespondsWith.of_exec {i : Instr} {s u : State} {ok : Bool} {c : Cause} {val : BitVec 32} (hu : u.rstIn = none)
    (hexec : exec i s = .next ((Prog.respond ok c val).run u)) : RespondsWith i s (respWord ok c val) :=
  ⟨_, hexec, State.respond_resp hu ok c val, Prog.run_respValid_quiet _ hu⟩

theorem RespondsWith.exists_resp {i : Instr} {s : State} {r : BitVec 64} (h : RespondsWith i s r) :
    ∃ t, exec i s = .next t ∧ t.resp = r := by
  obtain ⟨t, hexec, hresp, -⟩ := h
  exact ⟨t, hexec, hresp⟩

/-- A program or an erase is refused: at the busy check, or else at the write-enable check. -/
theorem guardedSeq_run_absent {u : State} (hu : u.rstIn = none) {b : Byte} (h : u.Absent b 4)
    (hb : busyBit b = true ∨ welBit b = false) (command : List Byte) (k : Bool → Cause → Prog) :
    ∃ v, v.rstIn = none ∧
      (guardedSeq command k).run u = (k false (if busyBit b then .busy else .writeDisabled)).run v := by
  rw [guardedSeq_run_quiet hu, h.readsSr1 (by decide), (h.after encSr1 (m := 2) (by decide)).readsSr1 (by decide)]
  cases hbusy : busyBit b
  · have hw : welBit b = false := hb.resolve_left (by simp [hbusy])
    exact ⟨(u.after encSr1).after encSr1, by simpa using hu, by simp [hw]⟩
  · exact ⟨u.after encSr1, by simpa using hu, by simp⟩

section
variable {s : State} (hrst : s.rstIn = none)
include hrst

/-- A program or an erase answers the cause of the first check that fails, ERASE_UP_TO_PAGE in its first round. -/
theorem respondsWith_guarded_absent {b : Byte} (h : s.Absent b 4) (hb : busyBit b = true ∨ welBit b = false)
    (a : BitVec 32) (p : BitVec 24) (m : BitVec 20) {i : Instr}
    (hi : i ∈ [Instr.programPage a, .eraseSector a, .writePage p, .sectorErase m, .eraseUpToPage p]) :
    RespondsWith i s (respWord false (if busyBit b then .busy else .writeDisabled) 0) := by
  have hplain (command : List Byte) (hexec : exec i s = serve (guardedSeq command respondPlain) s) :
      RespondsWith i s (respWord false (if busyBit b then .busy else .writeDisabled) 0) := by
    obtain ⟨v, hv, hrun⟩ := guardedSeq_run_absent (u := s.start) hrst h.start hb command respondPlain
    exact .of_exec hv (hexec.trans (serve_of_run hrun))
  simp only [List.mem_cons, List.not_mem_nil, or_false] at hi
  obtain rfl | rfl | rfl | rfl | rfl := hi
  · exact hplain (encProg a s.wdata.toList) rfl
  · exact hplain (encErase a) rfl
  · exact hplain (encProg (pageAddress p) s.wdata.toList) rfl
  · exact hplain (encErase (sectorAddress m)) rfl
  · obtain ⟨v, hv, hrun⟩ := guardedSeq_run_absent (u := s.start.setLoop _ _) hrst (h.start.setLoop _ _) hb _
      (eraseNext (sectorNumberFromPage p) (sectorNumberFromPage p).toNat)
    rw [← eraseLoop_run, eraseNext_false] at hrun
    exact .of_exec hv (serve_of_run (p := eraseUpToPageProg p) hrun)

/-- WORKS answers 0 whether the busy check fails or the identity read gets another byte than EXPECTED_ID (R196). -/
theorem respondsWith_works_absent {b : Byte} (h : s.Absent b 7) (hb : b ≠ 0x18#8) :
    RespondsWith .works s 0x0000000000000001#64 := by
  have hrun := readIdSeq_run_quiet (s := s.start) hrst
    fun ok _ id => .respond true .none (boolVal (ok && id == Config.expectedId))
  split at hrun
  · exact .of_exec (i := .works) (by simpa using hrst) (serve_of_run hrun)
  · have hid : (List.replicate encId.length b).getD 4 0 = b := rfl
    rw [(h.start.after encSr1 (m := 5) (by decide)).answer (by decide), hid, Bool.true_and, boolVal_eq_expectedId,
      if_neg hb] at hrun
    exact .of_exec (i := .works) (by simpa using hrst) (serve_of_run hrun)

/-- With MISO all ones the busy check of every checked operation reads BUSY. -/
theorem respondsWith_busy_of_allOnes (h : s.Absent 0xFF#8 4) (a : BitVec 32) (n : BitVec 16) (p : BitVec 24)
    (m : BitVec 20) {i : Instr}
    (hi : i ∈ [Instr.begin, .enter4b, .enableWrite, .readId, .readRaw a n, .programPage a, .eraseSector a, .readPage p,
      .writePage p, .sectorErase m, .eraseUpToPage p]) : RespondsWith i s (respWord false .busy 0) := by
  have hstart : s.start.rstIn = none := hrst
  have hbusy : busyBit s.start.readsSr1 = true := by rw [h.start.readsSr1 (by decide)]; rfl
  have hplain {q : Prog} {other : State} (hexec : exec i s = serve q s)
      (hrun : q.run s.start =
        if busyBit s.start.readsSr1 then (respondPlain false .busy).run (s.start.after encSr1) else other) :
      RespondsWith i s (respWord false .busy 0) :=
    .of_exec (by simpa using hrst) (hexec.trans (serve_of_run (hrun.trans (if_pos hbusy))))
  have hguarded := respondsWith_guarded_absent hrst h (.inl rfl) a p m (i := i)
  simp only [List.mem_cons, List.not_mem_nil, or_false] at hi
  obtain rfl | rfl | rfl | rfl | rfl | rfl | rfl | rfl | rfl | rfl | rfl := hi
  iterate 2
    · exact hplain rfl (enter4bSeq_run_quiet hstart _)
  · exact hplain rfl (enableWriteSeq_run_quiet hstart _)
  · exact hplain rfl (readIdSeq_run_quiet hstart _)
  · exact hplain rfl (readRawSeq_run_quiet hstart _ _ _)
  iterate 2
    · exact hguarded (by simp)
  · exact hplain rfl (readRawSeq_run_quiet hstart _ _ _)
  iterate 3
    · exact hguarded (by simp)

/-- With MISO all zeros a read succeeds, and its data is zero. -/
theorem exec_read_of_allZeros {i : Instr} {a : BitVec 32} {n : Nat} (h : s.Absent 0x00#8 (7 + n))
    (hexec : exec i s = serve (readRawSeq a n respondPlain) s) :
    ∃ t, exec i s = .next t ∧ t.resp = 0x0000000000000001#64 ∧ t.rdata = s.rdata ++ List.replicate n 0x00#8 := by
  have hlen : encSr1.length + (5 + n) ≤ 7 + n := by simp only [encSr1, List.length_cons, List.length_nil]; omega
  have hread : (s.start.after encSr1).elapse.answer (encRead a n) = List.replicate (5 + n) 0x00#8 := by
    rw [(h.start.after encSr1 hlen).answer (by simp), encRead_length]
  have hrun := readRawSeq_run_quiet (s := s.start) hrst a n respondPlain
  rw [h.start.readsSr1 (by omega), if_neg (by decide), hread, List.drop_replicate, Nat.add_sub_cancel_left] at hrun
  obtain ⟨hresp, -, -, hrdata⟩ := respondPlain_ok
    (u := ((s.start.after encSr1).after (encRead a n)).emit (List.replicate n 0x00#8)) (by simpa using hrst)
  exact ⟨_, hexec.trans (serve_of_run hrun), hresp, hrdata⟩

/-- With MISO all zeros the re-read of a mode-setting operation finds its bit clear. -/
theorem respondsWith_verifyFailed_of_allZeros (h : s.Absent 0x00#8 5) {i : Instr}
    (hi : i ∈ [Instr.begin, .enter4b, .enableWrite]) : RespondsWith i s (respWord false .verifyFailed 0) := by
  have hreread (command : List Byte) (hlen : command.length = 1) :
      ((s.start.after encSr1).after command).Absent 0x00#8 2 :=
    (h.start.after encSr1 (m := 3) (by decide)).after command (by omega)
  have h4b := enter4bSeq_run_quiet (s := s.start) hrst respondPlain
  rw [h.start.readsSr1 (by decide), if_neg (by decide), (hreread encEnter4b rfl).readsSr3 (by decide),
    if_neg (by decide)] at h4b
  have hwren := enableWriteSeq_run_quiet (s := s.start) hrst respondPlain
  rw [h.start.readsSr1 (by decide), if_neg (by decide), (hreread encWren rfl).readsSr1 (by decide),
    if_neg (by decide)] at hwren
  simp only [List.mem_cons, List.not_mem_nil, or_false] at hi
  obtain rfl | rfl | rfl := hi
  · exact .of_exec (by simpa using hrst) (serve_of_run (p := beginProg) h4b)
  · exact .of_exec (by simpa using hrst) (serve_of_run (p := enter4bProg) h4b)
  · exact .of_exec (by simpa using hrst) (serve_of_run (p := enableWriteProg) hwren)

end

/-- Settles O34: of both bytes WORKS answers 0; 0xFF has the busy bit set, and 0x00 has BUSY, WEL and ADS clear. -/
theorem absentDeviceIsDecodedAsRead : Obligations.AbsentDeviceIsDecodedAsRead := by
  intro a n p m s len hrst henv hlen
  have hn := n.isLt
  have habsent {b : Byte} {k : Nat} (hmiso : s.misoIn = List.replicate len b) (hk : k ≤ 70000) : s.Absent b k :=
    ⟨henv, len, by omega, hmiso⟩
  refine ⟨fun hones => ⟨fun i hi => ?_, ?_⟩, fun hzeros => ⟨?_, ?_, fun i hi => ?_, fun i hi => ?_, ?_⟩⟩
  · exact respondsWith_busy_of_allOnes hrst (habsent hones (by omega)) a n p m hi
  · exact (respondsWith_works_absent hrst (habsent hones (by omega)) (by decide)).exists_resp
  · exact exec_read_of_allZeros (i := .readRaw a n) hrst (habsent hzeros (by omega)) rfl
  · exact exec_read_of_allZeros (i := .readPage p) (n := 256) hrst (habsent hzeros (by omega)) rfl
  · exact (respondsWith_guarded_absent hrst (habsent hzeros (by omega)) (.inr rfl) a p m hi).exists_resp
  · exact (respondsWith_verifyFailed_of_allZeros hrst (habsent hzeros (by omega)) hi).exists_resp
  · exact (respondsWith_works_absent hrst (habsent hzeros (by omega)) (by decide)).exists_resp

end Sys2Proof.Machine
end

section
/-! PROOFS. Reset and hazards (70_reset_and_hazards). A success of a program or an erase at the reference device, which
has then taken the command (R237); and a pulse of RST: between transactions and while it is held (R230), while an
operation is served, and inside the frame of a wire command (R231). -/

namespace Sys2Proof.Machine

/-! ## What a success says of the device (R237) -/

/-- The device has taken a program or an erase (20_memory R67, R68). -/
def Device.Took (d : Device) : Prop := d.busy = true ∧ d.wel = true ∧ d.pending ≠ .none

/-- A success is answered only where the device has taken a program or an erase. -/
def State.OkTook (t : State) : Prop := respOk t.resp = true → t.dev.Took

/-- An idle, write-enabled device takes the command. -/
def IsTaken (command : List Byte) : Prop :=
  ∀ (d : Device) (n : Nat), d.busy = false → d.wel = true → (d.act n command).Took

theorem Device.took_accept {d : Device} (hb : d.busy = false) (hw : d.wel = true) (n : Nat) {q : Pending}
    (hq : q ≠ .none) : (d.accept n q).Took := by
  obtain ⟨len, he⟩ := Device.accepted_accept hb hw n q
  rw [he]
  exact ⟨rfl, hw, hq⟩

theorem Device.programPending_ne_none (d : Device) (a : BitVec 32) (data : List Byte) :
    d.programPending a data ≠ .none := by
  rw [Device.programPending_eq]
  split_ifs <;> simp

theorem Device.erasePending_ne_none (d : Device) (a : BitVec 32) : d.erasePending a ≠ .none := by
  rw [Device.erasePending_eq]
  split_ifs <;> simp

theorem isTaken_encProg (a : BitVec 32) (data : Page) : IsTaken (encProg a data.toList) := by
  intro d n hb hw
  rw [Device.act_encProg d n a data.toList (by simp)]
  exact Device.took_accept hb hw n (d.programPending_ne_none a data.toList)

theorem isTaken_encErase (a : BitVec 32) : IsTaken (encErase a) := by
  intro d n hb hw
  rw [Device.act_encErase]
  exact Device.took_accept hb hw n (d.erasePending_ne_none a)

theorem okTook_success {u : State} (hu : u.rstIn = none) (h : u.dev.Took) :
    ((respondPlain true .none).run u).OkTook := by
  obtain ⟨-, -, hdev, -⟩ := respondPlain_ok hu
  intro _
  rwa [hdev]

theorem okTook_failure {u : State} (hu : u.rstIn = none) (c : Cause) : ((respondPlain false c).run u).OkTook := by
  intro hok
  rw [respondPlain, Prog.run_respond, State.respond_resp hu, respOk_respWord] at hok
  cases hok

/-- Where a check of the reference device fails there is no success. -/
theorem guardedSeq_okTook_refused {s : State} (hrst : s.rstIn = none) (henv : s.env = .reference)
    (hfails : s.elapse.dev.busy = true ∨ s.elapse.dev.wel = false) (command : List Byte) {k : Bool → Cause → Prog}
    (hk : ∀ c, k false c = respondPlain false c) : ((guardedSeq command k).run s).OkTook := by
  cases hb : s.elapse.dev.busy
  · rw [guardedSeq_run_disabled hrst henv hb (hfails.resolve_left (by simp [hb])), hk]
    exact okTook_failure (by simpa using hrst) _
  · rw [guardedSeq_run_busy hrst henv hb, hk]
    exact okTook_failure (by simpa using hrst) _

/-- The sequence of a program or an erase: the device takes the command where the checks pass, and it is left to what
follows to end in a success or not. -/
theorem guardedSeq_okTook {s : State} (hrst : s.rstIn = none) (henv : s.env = .reference) {command : List Byte}
    (hc : IsTaken command) {k : Bool → Cause → Prog} (hfail : ∀ c, k false c = respondPlain false c)
    (hok : ∀ u : State, u.rstIn = none → u.env = .reference → u.dev.Took → ((k true .none).run u).OkTook) :
    ((guardedSeq command k).run s).OkTook := by
  by_cases hfails : s.elapse.dev.busy = true ∨ s.elapse.dev.wel = false
  · exact guardedSeq_okTook_refused hrst henv hfails command hfail
  · obtain ⟨hb, hw⟩ : s.elapse.dev.busy = false ∧ s.elapse.dev.wel = true := by simpa using hfails
    obtain ⟨n, hdev⟩ := State.after_checks_dev henv hb command
    rw [guardedSeq_run_ready hrst henv hb hw]
    exact hok _ (by simpa using hrst) (by simpa using henv) (by rw [hdev]; exact hc _ n hb hw)

/-- The gap after a command that the device has taken leaves it busy, or completes and clears WEL (20_memory R70). -/
theorem Device.Took.elapse {d : Device} (h : d.Took) (n : Nat) :
    (d.elapse n).busy = true ∨ (d.elapse n).wel = false := by
  obtain ⟨hb, -, -⟩ := h
  rcases d.elapse_cases n with ⟨-, hd⟩ | ⟨-, k, -, hd⟩ | ⟨-, -, hd⟩ <;> rw [hd]
  · exact .inl hb
  · exact .inl hb
  · exact .inr rfl

/-- No round that follows the accepted erase of another sector ends in a success (44_sequencer R186). -/
theorem eraseLoop_okTook_of_took (last : BitVec 20) (n : Nat) {s : State} (hrst : s.rstIn = none)
    (henv : s.env = .reference) (h : s.dev.Took) : ((eraseLoop last n).run s).OkTook := by
  rw [eraseLoop_run]
  refine guardedSeq_okTook_refused (s := s.setLoop _ last) hrst henv ?_ _ (eraseNext_false last n)
  rw [State.elapse_dev_reference (s := s.setLoop _ last) henv]
  exact h.elapse _

theorem eraseLoop_okTook (last : BitVec 20) (n : Nat) {s : State} (hrst : s.rstIn = none)
    (henv : s.env = .reference) : ((eraseLoop last n).run s).OkTook := by
  rw [eraseLoop_run]
  refine guardedSeq_okTook (s := s.setLoop _ last) hrst henv (isTaken_encErase _) (eraseNext_false last n)
    fun u hu he ht => ?_
  cases n with
  | zero => exact okTook_success hu ht
  | succ n => exact eraseLoop_okTook_of_took last n hu he ht

/-- Settles O36: each operation is a guarded sequence of a command that an idle, write-enabled device takes, and the
loop of ERASE_UP_TO_PAGE comes to no success after a first erase that was not its last. -/
theorem okMeansTheDeviceTookTheCommand : Obligations.OkMeansTheDeviceTookTheCommand := by
  intro a p m i hi s t hrst henv hexec
  have guarded {command : List Byte} (hc : IsTaken command) :
      ((guardedSeq command respondPlain).run s.start).OkTook :=
    guardedSeq_okTook (s := s.start) hrst henv hc (fun _ => rfl) fun _ hu _ ht => okTook_success hu ht
  simp only [List.mem_cons, List.not_mem_nil, or_false] at hi
  obtain rfl | rfl | rfl | rfl | rfl := hi <;> cases hexec
  · exact guarded (isTaken_encProg a s.wdata)
  · exact guarded (isTaken_encErase a)
  · exact guarded (isTaken_encProg (pageAddress p) s.wdata)
  · exact guarded (isTaken_encErase (sectorAddress m))
  · exact eraseLoop_okTook _ _ (s := s.start) hrst henv

/-! ## RST between transactions and while it is held (R230, R231) -/

/-- A reset of a state in which RESP is still that of `s` abandons the operation of `s`. -/
theorem abandoned_assertRst {s u : State} {hold : Nat} (h : u.resp = s.resp) : Abandoned s (u.assertRst hold) :=
  ⟨h, rfl, rfl, rfl, rfl, rfl, rfl, rfl⟩

theorem step_rst_due {s : State} {hold : Nat} (hheld : s.rstHeld = 0) (hdue : s.rstIn = some ⟨0, 0, hold⟩) :
    step s = .next (s.assertRst hold) := by
  simp [step, stepOf, hheld, hdue]

theorem step_rst_held {s : State} {n : Nat} (hheld : s.rstHeld = n + 1) :
    step s = .next { s.elapse.blockReset with rstHeld := n } := by
  simp [step, stepOf, hheld, heldStep]

/-- Settles O54: a step comes to a pulse that is due, and to RST while it is held, before SEQ_STATE and the host
port. -/
theorem resetAbandonsAndHolds : Obligations.ResetAbandonsAndHolds :=
  ⟨fun _ _ hheld hdue => ⟨_, step_rst_due hheld hdue, abandoned_assertRst rfl, rfl, rfl, rfl, rfl⟩,
    fun _ _ hheld => ⟨_, step_rst_held hheld, rfl, rfl, rfl, rfl, rfl, rfl, rfl, rfl, rfl⟩⟩

/-! ## RST while an operation is served (R231) -/

/-- A transaction with a pulse of RST pending: it is completed and the pulse is still to come, or the pulse stops it
before or inside its frame. -/
theorem State.transact_pulse {s : State} {q : RstPulse} (h : s.rstIn = some q) (tx : List Byte) :
    (∃ r : RstPulse, r.hold = q.hold ∧ s.transact tx = ({ s with rstIn := some r }.xfer tx, true)) ∨
    s.transact tx = (s.assertRst q.hold, false) ∨
    s.transact tx = ((s.elapse.truncate tx q.bits).assertRst q.hold, false) := by
  simp only [State.transact, h]
  split
  · next n _ => exact .inl ⟨{ q with steps := n }, rfl, rfl⟩
  · split_ifs
    · exact .inr (.inl rfl)
    · exact .inr (.inr rfl)
    · exact .inl ⟨{ q with bits := 0 }, rfl, rfl⟩

/-- A response with a pulse of RST pending: it is written and the pulse is still to come, or the pulse takes its
place. -/
theorem State.respond_pulse {s : State} {q : RstPulse} (h : s.rstIn = some q) (ok : Bool) (c : Cause)
    (val : BitVec 32) :
    (∃ r : RstPulse, r.hold = q.hold ∧ s.respond ok c val = { s with rstIn := some r }.writeResp ok c val) ∨
    s.respond ok c val = s.assertRst q.hold := by
  simp only [State.respond, h]
  split
  · next n _ => exact .inl ⟨{ q with steps := n }, rfl, rfl⟩
  · exact .inr rfl

/-- The operation of `s` has been answered before a pulse of RST, or the pulse has abandoned it. -/
def AnsweredOrAbandoned (hold : Nat) (s t : State) : Prop :=
  (t.respValid = true ∧ t.seqState = .idle ∧ ∃ q, t.rstIn = some q ∧ q.hold = hold) ∨
  (Abandoned s t ∧ t.rstHeld = hold)

/-- Up to its response a sequence keeps RESP, and the pulse that is pending. -/
theorem Prog.run_pulse (p : Prog) {s u : State} {q : RstPulse} (hresp : u.resp = s.resp) (hq : u.rstIn = some q) :
    AnsweredOrAbandoned q.hold s (p.run u) := by
  induction p generalizing u q with
  | xfer tx k ih =>
    rcases State.transact_pulse hq tx with ⟨r, hr, h⟩ | h | h <;> simp only [Prog.run, h]
    · rw [← hr]
      exact ih _ hresp rfl
    · exact .inr ⟨abandoned_assertRst hresp, rfl⟩
    · exact .inr ⟨abandoned_assertRst hresp, rfl⟩
  | emit bytes p ih => exact ih hresp hq
  | setLoop i last p ih => exact ih hresp hq
  | respond ok c val =>
    rw [Prog.run_respond]
    rcases State.respond_pulse hq ok c val with ⟨r, hr, h⟩ | h <;> rw [h]
    · exact .inl ⟨rfl, rfl, r, rfl, hr⟩
    · exact .inr ⟨abandoned_assertRst hresp, rfl⟩

/-- Settles O55: a host operation is served by the run of its sequence. -/
theorem resetDuringAnOperation : Obligations.ResetDuringAnOperation := by
  intro i s t q hwire hq hexec
  obtain ⟨p, hp⟩ := opProg_of_not_wire hwire s.wdata
  rw [exec_of_opProg hp] at hexec
  cases hexec
  exact Prog.run_pulse p (u := s.start) rfl hq

/-! ## RST inside the frame of a wire command (R231) -/

theorem State.transact_cut {s : State} {tx : List Byte} {bits hold : Nat} (h : s.rstIn = some ⟨0, bits, hold⟩)
    (hpos : 0 < bits) (hlt : bits < sckCycles tx) :
    s.transact tx = ((s.elapse.truncate tx bits).assertRst hold, false) := by
  simp [State.transact, h, Nat.ne_of_gt hpos, hlt]

theorem State.truncate_dev_reference {s : State} (henv : s.env = .reference) (tx : List Byte) (bits : Nat) :
    (s.truncate tx bits).dev = s.dev.truncate s.draws tx := by
  simp [State.truncate, henv]

/-- PENDING of a program or an erase cut short is None or a Havoc; BUSY, WEL and the time left are draws. -/
theorem Device.scramble_cases (d : Device) (n : Nat) (r : Region) :
    ∃ b w len q, d.scramble n r = { d with busy := b, wel := w, busyLeft := len, pending := q } ∧
      (q = .none ∨ q = .havoc r) := by
  refine ⟨_, _, _, _, rfl, ?_⟩
  split
  · exact .inr rfl
  · exact .inl rfl

theorem Device.truncate_encProg (d : Device) (n : Nat) (a : BitVec 32) (data : List Byte) :
    d.truncate n (encProg a data) = d.scramble n (.span (a.toNat / 256 * 256) 256) := by
  simp [Device.truncate, pageBase_eq, Config.pageSize]

theorem Device.truncate_encErase (d : Device) (n : Nat) (a : BitVec 32) :
    d.truncate n (encErase a) = d.scramble n (.span (a.toNat / 4096 * 4096) 4096) := by
  simp [Device.truncate, sectorOfAddr, Config.sectorSize]

/-- Settles O56: the cut ends the one transaction of the command, and the device has the effect of its opcode. -/
theorem truncatedFrameEffects : Obligations.TruncatedFrameEffects := by
  intro i tx s bits hold hwire hwf he henv hrst hpos hlt
  have hdev : ((s.elapse.truncate tx bits).assertRst hold).dev = s.elapse.dev.truncate (s.draws + 1) tx :=
    State.truncate_dev_reference (s := s.elapse) henv tx bits
  have hexec : exec i s = .next ((s.elapse.truncate tx bits).assertRst hold) := by
    rw [exec_of_frame hwf he, State.transact_cut hrst hpos hlt]
  refine ⟨_, hexec, abandoned_assertRst rfl, rfl, rfl, ?_⟩
  rw [hdev]
  cases i with
  | encSr1 | encSr2 | encSr3 | encId | encRead => cases he; rfl
  | encEnter4b | encWren => cases he; exact ⟨_, rfl⟩
  | encProg a data =>
    cases he
    rw [Device.truncate_encProg]
    exact Device.scramble_cases _ _ _
  | encErase a =>
    cases he
    rw [Device.truncate_encErase]
    exact Device.scramble_cases _ _ _
  | _ => cases hwire

end Sys2Proof.Machine
end
